-- ==== Sys2Proof/Word.lean ====
section
/-! DEFINITION. The word types of the machine (spec 00_scope.md R11: a byte is 8 bits, a word is 16 bits). -/

namespace Sys2Proof

/-- A byte (R11). -/
abbrev Byte := BitVec 8

/-- A word (R11). -/
abbrev Word := BitVec 16

/-- A 20-bit physical address (R100). -/
abbrev Phys := BitVec 20

end Sys2Proof
end

