-- ==== Sys2Proof/Syntax.lean ====
section
/-! DEFINITION. The instructions as syntax: one constructor per row of spec/opcode_table.json, its
operands already decoded (30_encoding.md R160-R172). -/

namespace Sys2Proof

/-- The eight 16-bit general registers, in their encoding order (R31, R160). -/
inductive Reg16 where
  | ax | cx | dx | bx | sp | bp | si | di
deriving DecidableEq, Repr, Inhabited

/-- The eight 8-bit registers, in their encoding order (R32, R160). -/
inductive Reg8 where
  | al | cl | dl | bl | ah | ch | dh | bh
deriving DecidableEq, Repr, Inhabited

/-- The four segment registers, in their encoding order (R34, R160). -/
inductive SReg where
  | es | cs | ss | ds
deriving DecidableEq, Repr, Inhabited

/-- The base part of a ModRM memory operand, in the order of its `rm` field (R163). -/
inductive Base where
  | bxsi | bxdi | bpsi | bpdi | si | di | bp | bx
deriving DecidableEq, Repr, Inhabited

/-- The displacement of a ModRM memory operand (R164). -/
inductive Disp where
  | none
  | d8 (d : Byte)
  | d16 (d : Word)
deriving DecidableEq, Repr, Inhabited

/-- A ModRM memory operand (R163): a direct offset (mod=00, rm=110), or a base with a displacement. -/
inductive Mem where
  | direct (off : Word)
  | based (b : Base) (d : Disp)
deriving DecidableEq, Repr, Inhabited

/-- The operand E of width 8 (R162, R163). -/
inductive Rm8 where
  | reg (r : Reg8)
  | mem (m : Mem)
deriving DecidableEq, Repr, Inhabited

/-- The operand E of width 16 (R162, R163). -/
inductive Rm16 where
  | reg (r : Reg16)
  | mem (m : Mem)
deriving DecidableEq, Repr, Inhabited

/-- The instructions: one constructor per row of spec/opcode_table.json, the rows with operands first,
each half in the table's order.
The names follow the table: `Eb`, `Ev`, `Gb`, `Gv` the ModRM operands, `Ib`, `Iw`, `Ibs` the
immediates (`Ibs` is kept as its byte; its meaning sign-extends it), `rel` a displacement byte or
word.  The prefix rows are constructors too: a prefix is part of the instruction it precedes (R455),
and its meaning records it for that instruction. -/
inductive Instr where
  | addEbGb (e : Rm8) (g : Reg8)
  | addEvGv (e : Rm16) (g : Reg16)
  | addGbEb (g : Reg8) (e : Rm8)
  | addGvEv (g : Reg16) (e : Rm16)
  | addAlIb (i : Byte)
  | addAxIw (i : Word)
  | addEbIb (e : Rm8) (i : Byte)
  | addEvIw (e : Rm16) (i : Word)
  | addEbIbAlias (e : Rm8) (i : Byte)
  | addEvIbs (e : Rm16) (i : Byte)
  | orEbGb (e : Rm8) (g : Reg8)
  | orEvGv (e : Rm16) (g : Reg16)
  | orGbEb (g : Reg8) (e : Rm8)
  | orGvEv (g : Reg16) (e : Rm16)
  | orAlIb (i : Byte)
  | orAxIw (i : Word)
  | orEbIb (e : Rm8) (i : Byte)
  | orEvIw (e : Rm16) (i : Word)
  | orEbIbAlias (e : Rm8) (i : Byte)
  | orEvIbs (e : Rm16) (i : Byte)
  | adcEbGb (e : Rm8) (g : Reg8)
  | adcEvGv (e : Rm16) (g : Reg16)
  | adcGbEb (g : Reg8) (e : Rm8)
  | adcGvEv (g : Reg16) (e : Rm16)
  | adcAlIb (i : Byte)
  | adcAxIw (i : Word)
  | adcEbIb (e : Rm8) (i : Byte)
  | adcEvIw (e : Rm16) (i : Word)
  | adcEbIbAlias (e : Rm8) (i : Byte)
  | adcEvIbs (e : Rm16) (i : Byte)
  | sbbEbGb (e : Rm8) (g : Reg8)
  | sbbEvGv (e : Rm16) (g : Reg16)
  | sbbGbEb (g : Reg8) (e : Rm8)
  | sbbGvEv (g : Reg16) (e : Rm16)
  | sbbAlIb (i : Byte)
  | sbbAxIw (i : Word)
  | sbbEbIb (e : Rm8) (i : Byte)
  | sbbEvIw (e : Rm16) (i : Word)
  | sbbEbIbAlias (e : Rm8) (i : Byte)
  | sbbEvIbs (e : Rm16) (i : Byte)
  | andEbGb (e : Rm8) (g : Reg8)
  | andEvGv (e : Rm16) (g : Reg16)
  | andGbEb (g : Reg8) (e : Rm8)
  | andGvEv (g : Reg16) (e : Rm16)
  | andAlIb (i : Byte)
  | andAxIw (i : Word)
  | andEbIb (e : Rm8) (i : Byte)
  | andEvIw (e : Rm16) (i : Word)
  | andEbIbAlias (e : Rm8) (i : Byte)
  | andEvIbs (e : Rm16) (i : Byte)
  | subEbGb (e : Rm8) (g : Reg8)
  | subEvGv (e : Rm16) (g : Reg16)
  | subGbEb (g : Reg8) (e : Rm8)
  | subGvEv (g : Reg16) (e : Rm16)
  | subAlIb (i : Byte)
  | subAxIw (i : Word)
  | subEbIb (e : Rm8) (i : Byte)
  | subEvIw (e : Rm16) (i : Word)
  | subEbIbAlias (e : Rm8) (i : Byte)
  | subEvIbs (e : Rm16) (i : Byte)
  | xorEbGb (e : Rm8) (g : Reg8)
  | xorEvGv (e : Rm16) (g : Reg16)
  | xorGbEb (g : Reg8) (e : Rm8)
  | xorGvEv (g : Reg16) (e : Rm16)
  | xorAlIb (i : Byte)
  | xorAxIw (i : Word)
  | xorEbIb (e : Rm8) (i : Byte)
  | xorEvIw (e : Rm16) (i : Word)
  | xorEbIbAlias (e : Rm8) (i : Byte)
  | xorEvIbs (e : Rm16) (i : Byte)
  | cmpEbGb (e : Rm8) (g : Reg8)
  | cmpEvGv (e : Rm16) (g : Reg16)
  | cmpGbEb (g : Reg8) (e : Rm8)
  | cmpGvEv (g : Reg16) (e : Rm16)
  | cmpAlIb (i : Byte)
  | cmpAxIw (i : Word)
  | cmpEbIb (e : Rm8) (i : Byte)
  | cmpEvIw (e : Rm16) (i : Word)
  | cmpEbIbAlias (e : Rm8) (i : Byte)
  | cmpEvIbs (e : Rm16) (i : Byte)
  | incR16 (r : Reg16)
  | decR16 (r : Reg16)
  | pushR16 (r : Reg16)
  | popR16 (r : Reg16)
  | boundGvMa (g : Reg16) (m : Mem)
  | pushIw (i : Word)
  | imulGvEvIw (g : Reg16) (e : Rm16) (i : Word)
  | pushIbs (i : Byte)
  | imulGvEvIbs (g : Reg16) (e : Rm16) (i : Byte)
  | joRel8 (rel : Byte)
  | jnoRel8 (rel : Byte)
  | jbRel8 (rel : Byte)
  | jnbRel8 (rel : Byte)
  | jzRel8 (rel : Byte)
  | jnzRel8 (rel : Byte)
  | jbeRel8 (rel : Byte)
  | jaRel8 (rel : Byte)
  | jsRel8 (rel : Byte)
  | jnsRel8 (rel : Byte)
  | jpRel8 (rel : Byte)
  | jnpRel8 (rel : Byte)
  | jlRel8 (rel : Byte)
  | jgeRel8 (rel : Byte)
  | jleRel8 (rel : Byte)
  | jgRel8 (rel : Byte)
  | testEbGb (e : Rm8) (g : Reg8)
  | testEvGv (e : Rm16) (g : Reg16)
  | xchgEbGb (e : Rm8) (g : Reg8)
  | xchgEvGv (e : Rm16) (g : Reg16)
  | movEbGb (e : Rm8) (g : Reg8)
  | movEvGv (e : Rm16) (g : Reg16)
  | movGbEb (g : Reg8) (e : Rm8)
  | movGvEv (g : Reg16) (e : Rm16)
  | movEwEs (e : Rm16)
  | movEwCs (e : Rm16)
  | movEwSs (e : Rm16)
  | movEwDs (e : Rm16)
  | leaGvM (g : Reg16) (m : Mem)
  | movEsEw (e : Rm16)
  | movSsEw (e : Rm16)
  | movDsEw (e : Rm16)
  | popEv (e : Rm16)
  | xchgR16Ax (r : Reg16)
  | callAp (off : Word) (sg : Word)
  | movAlOb (o : Word)
  | movAxOw (o : Word)
  | movObAl (o : Word)
  | movOwAx (o : Word)
  | testAlIb (i : Byte)
  | testAxIw (i : Word)
  | movR8Ib (r : Reg8) (i : Byte)
  | movR16Iw (r : Reg16) (i : Word)
  | rolEbIb (e : Rm8) (c : Byte)
  | rolEvIb (e : Rm16) (c : Byte)
  | rolEb1 (e : Rm8)
  | rolEv1 (e : Rm16)
  | rolEbCl (e : Rm8)
  | rolEvCl (e : Rm16)
  | rorEbIb (e : Rm8) (c : Byte)
  | rorEvIb (e : Rm16) (c : Byte)
  | rorEb1 (e : Rm8)
  | rorEv1 (e : Rm16)
  | rorEbCl (e : Rm8)
  | rorEvCl (e : Rm16)
  | rclEbIb (e : Rm8) (c : Byte)
  | rclEvIb (e : Rm16) (c : Byte)
  | rclEb1 (e : Rm8)
  | rclEv1 (e : Rm16)
  | rclEbCl (e : Rm8)
  | rclEvCl (e : Rm16)
  | rcrEbIb (e : Rm8) (c : Byte)
  | rcrEvIb (e : Rm16) (c : Byte)
  | rcrEb1 (e : Rm8)
  | rcrEv1 (e : Rm16)
  | rcrEbCl (e : Rm8)
  | rcrEvCl (e : Rm16)
  | shlEbIb (e : Rm8) (c : Byte)
  | shlEvIb (e : Rm16) (c : Byte)
  | shlEb1 (e : Rm8)
  | shlEv1 (e : Rm16)
  | shlEbCl (e : Rm8)
  | shlEvCl (e : Rm16)
  | shrEbIb (e : Rm8) (c : Byte)
  | shrEvIb (e : Rm16) (c : Byte)
  | shrEb1 (e : Rm8)
  | shrEv1 (e : Rm16)
  | shrEbCl (e : Rm8)
  | shrEvCl (e : Rm16)
  | sarEbIb (e : Rm8) (c : Byte)
  | sarEvIb (e : Rm16) (c : Byte)
  | sarEb1 (e : Rm8)
  | sarEv1 (e : Rm16)
  | sarEbCl (e : Rm8)
  | sarEvCl (e : Rm16)
  | retIw (i : Word)
  | lesGvMp (g : Reg16) (m : Mem)
  | ldsGvMp (g : Reg16) (m : Mem)
  | movEbIb (e : Rm8) (i : Byte)
  | movEvIw (e : Rm16) (i : Word)
  | enterIwIb (size : Word) (level : Byte)
  | retfIw (i : Word)
  | intIb (n : Byte)
  | aamIb (i : Byte)
  | aadIb (i : Byte)
  | esc (n : BitVec 3) (x : BitVec 3) (e : Rm16)
  | loopnzRel8 (rel : Byte)
  | loopzRel8 (rel : Byte)
  | loopRel8 (rel : Byte)
  | jcxzRel8 (rel : Byte)
  | inAlIb (p : Byte)
  | inAxIb (p : Byte)
  | outIbAl (p : Byte)
  | outIbAx (p : Byte)
  | callRel16 (rel : Word)
  | jmpRel16 (rel : Word)
  | jmpAp (off : Word) (sg : Word)
  | jmpRel8 (rel : Byte)
  | testEbIb (e : Rm8) (i : Byte)
  | testEvIw (e : Rm16) (i : Word)
  | notEb (e : Rm8)
  | notEv (e : Rm16)
  | negEb (e : Rm8)
  | negEv (e : Rm16)
  | mulEb (e : Rm8)
  | mulEv (e : Rm16)
  | imulEb (e : Rm8)
  | imulEv (e : Rm16)
  | divEb (e : Rm8)
  | divEv (e : Rm16)
  | idivEb (e : Rm8)
  | idivEv (e : Rm16)
  | incEb (e : Rm8)
  | decEb (e : Rm8)
  | incEv (e : Rm16)
  | decEv (e : Rm16)
  | callEv (e : Rm16)
  | callMp (m : Mem)
  | jmpEv (e : Rm16)
  | jmpMp (m : Mem)
  | pushEv (e : Rm16)
  | pushEs
  | pushCs
  | pushSs
  | pushDs
  | popEs
  | popSs
  | popDs
  | pfxEs
  | pfxCs
  | pfxSs
  | pfxDs
  | pfxLock
  | pfxRepne
  | pfxRep
  | daa
  | das
  | aaa
  | aas
  | pusha
  | popa
  | insb
  | insw
  | outsb
  | outsw
  | nop
  | cbw
  | cwd
  | wait
  | pushf
  | popf
  | sahf
  | lahf
  | movsb
  | movsw
  | cmpsb
  | cmpsw
  | stosb
  | stosw
  | lodsb
  | lodsw
  | scasb
  | scasw
  | ret
  | leave
  | retf
  | int3
  | into
  | iret
  | xlat
  | inAlDx
  | inAxDx
  | outDxAl
  | outDxAx
  | hlt
  | cmc
  | clc
  | stc
  | cli
  | sti
  | cld
  | std
deriving DecidableEq, Repr, Inhabited

end Sys2Proof
end

