-- ==== Sys2Proof/WellFormed.lean ====
section
/-! DEFINITION. Which instruction terms have an encoding (30_encoding.md R163, R164; 40_data_transfer.md
R218).  The operand types rule out the rest. -/

namespace Sys2Proof

/-- A memory operand has an encoding: mod=00 with rm=110 is the direct form, so `[BP]` always carries
a displacement (R163, R164). -/
def Mem.wf : Mem → Bool
  | .based .bp .none => false
  | _ => true

/-- The operand E of width 8 has an encoding. -/
def Rm8.wf : Rm8 → Bool
  | .reg _ => true
  | .mem m => m.wf

/-- The operand E of width 16 has an encoding. -/
def Rm16.wf : Rm16 → Bool
  | .reg _ => true
  | .mem m => m.wf

/-- An instruction has an encoding: its memory operand has one, and the register of `XCHG r16, AX` is
not AX, whose byte 90 is NOP (R218). -/
def Instr.wf : Instr → Bool
  | .addEbGb e _ => e.wf
  | .addEvGv e _ => e.wf
  | .addGbEb _ e => e.wf
  | .addGvEv _ e => e.wf
  | .addAlIb _ => true
  | .addAxIw _ => true
  | .addEbIb e _ => e.wf
  | .addEvIw e _ => e.wf
  | .addEbIbAlias e _ => e.wf
  | .addEvIbs e _ => e.wf
  | .orEbGb e _ => e.wf
  | .orEvGv e _ => e.wf
  | .orGbEb _ e => e.wf
  | .orGvEv _ e => e.wf
  | .orAlIb _ => true
  | .orAxIw _ => true
  | .orEbIb e _ => e.wf
  | .orEvIw e _ => e.wf
  | .orEbIbAlias e _ => e.wf
  | .orEvIbs e _ => e.wf
  | .adcEbGb e _ => e.wf
  | .adcEvGv e _ => e.wf
  | .adcGbEb _ e => e.wf
  | .adcGvEv _ e => e.wf
  | .adcAlIb _ => true
  | .adcAxIw _ => true
  | .adcEbIb e _ => e.wf
  | .adcEvIw e _ => e.wf
  | .adcEbIbAlias e _ => e.wf
  | .adcEvIbs e _ => e.wf
  | .sbbEbGb e _ => e.wf
  | .sbbEvGv e _ => e.wf
  | .sbbGbEb _ e => e.wf
  | .sbbGvEv _ e => e.wf
  | .sbbAlIb _ => true
  | .sbbAxIw _ => true
  | .sbbEbIb e _ => e.wf
  | .sbbEvIw e _ => e.wf
  | .sbbEbIbAlias e _ => e.wf
  | .sbbEvIbs e _ => e.wf
  | .andEbGb e _ => e.wf
  | .andEvGv e _ => e.wf
  | .andGbEb _ e => e.wf
  | .andGvEv _ e => e.wf
  | .andAlIb _ => true
  | .andAxIw _ => true
  | .andEbIb e _ => e.wf
  | .andEvIw e _ => e.wf
  | .andEbIbAlias e _ => e.wf
  | .andEvIbs e _ => e.wf
  | .subEbGb e _ => e.wf
  | .subEvGv e _ => e.wf
  | .subGbEb _ e => e.wf
  | .subGvEv _ e => e.wf
  | .subAlIb _ => true
  | .subAxIw _ => true
  | .subEbIb e _ => e.wf
  | .subEvIw e _ => e.wf
  | .subEbIbAlias e _ => e.wf
  | .subEvIbs e _ => e.wf
  | .xorEbGb e _ => e.wf
  | .xorEvGv e _ => e.wf
  | .xorGbEb _ e => e.wf
  | .xorGvEv _ e => e.wf
  | .xorAlIb _ => true
  | .xorAxIw _ => true
  | .xorEbIb e _ => e.wf
  | .xorEvIw e _ => e.wf
  | .xorEbIbAlias e _ => e.wf
  | .xorEvIbs e _ => e.wf
  | .cmpEbGb e _ => e.wf
  | .cmpEvGv e _ => e.wf
  | .cmpGbEb _ e => e.wf
  | .cmpGvEv _ e => e.wf
  | .cmpAlIb _ => true
  | .cmpAxIw _ => true
  | .cmpEbIb e _ => e.wf
  | .cmpEvIw e _ => e.wf
  | .cmpEbIbAlias e _ => e.wf
  | .cmpEvIbs e _ => e.wf
  | .incR16 _ => true
  | .decR16 _ => true
  | .pushR16 _ => true
  | .popR16 _ => true
  | .boundGvMa _ m => m.wf
  | .pushIw _ => true
  | .imulGvEvIw _ e _ => e.wf
  | .pushIbs _ => true
  | .imulGvEvIbs _ e _ => e.wf
  | .joRel8 _ => true
  | .jnoRel8 _ => true
  | .jbRel8 _ => true
  | .jnbRel8 _ => true
  | .jzRel8 _ => true
  | .jnzRel8 _ => true
  | .jbeRel8 _ => true
  | .jaRel8 _ => true
  | .jsRel8 _ => true
  | .jnsRel8 _ => true
  | .jpRel8 _ => true
  | .jnpRel8 _ => true
  | .jlRel8 _ => true
  | .jgeRel8 _ => true
  | .jleRel8 _ => true
  | .jgRel8 _ => true
  | .testEbGb e _ => e.wf
  | .testEvGv e _ => e.wf
  | .xchgEbGb e _ => e.wf
  | .xchgEvGv e _ => e.wf
  | .movEbGb e _ => e.wf
  | .movEvGv e _ => e.wf
  | .movGbEb _ e => e.wf
  | .movGvEv _ e => e.wf
  | .movEwEs e => e.wf
  | .movEwCs e => e.wf
  | .movEwSs e => e.wf
  | .movEwDs e => e.wf
  | .leaGvM _ m => m.wf
  | .movEsEw e => e.wf
  | .movSsEw e => e.wf
  | .movDsEw e => e.wf
  | .popEv e => e.wf
  | .xchgR16Ax r => decide (r ≠ Reg16.ax)
  | .callAp _ _ => true
  | .movAlOb _ => true
  | .movAxOw _ => true
  | .movObAl _ => true
  | .movOwAx _ => true
  | .testAlIb _ => true
  | .testAxIw _ => true
  | .movR8Ib _ _ => true
  | .movR16Iw _ _ => true
  | .rolEbIb e _ => e.wf
  | .rolEvIb e _ => e.wf
  | .rolEb1 e => e.wf
  | .rolEv1 e => e.wf
  | .rolEbCl e => e.wf
  | .rolEvCl e => e.wf
  | .rorEbIb e _ => e.wf
  | .rorEvIb e _ => e.wf
  | .rorEb1 e => e.wf
  | .rorEv1 e => e.wf
  | .rorEbCl e => e.wf
  | .rorEvCl e => e.wf
  | .rclEbIb e _ => e.wf
  | .rclEvIb e _ => e.wf
  | .rclEb1 e => e.wf
  | .rclEv1 e => e.wf
  | .rclEbCl e => e.wf
  | .rclEvCl e => e.wf
  | .rcrEbIb e _ => e.wf
  | .rcrEvIb e _ => e.wf
  | .rcrEb1 e => e.wf
  | .rcrEv1 e => e.wf
  | .rcrEbCl e => e.wf
  | .rcrEvCl e => e.wf
  | .shlEbIb e _ => e.wf
  | .shlEvIb e _ => e.wf
  | .shlEb1 e => e.wf
  | .shlEv1 e => e.wf
  | .shlEbCl e => e.wf
  | .shlEvCl e => e.wf
  | .shrEbIb e _ => e.wf
  | .shrEvIb e _ => e.wf
  | .shrEb1 e => e.wf
  | .shrEv1 e => e.wf
  | .shrEbCl e => e.wf
  | .shrEvCl e => e.wf
  | .sarEbIb e _ => e.wf
  | .sarEvIb e _ => e.wf
  | .sarEb1 e => e.wf
  | .sarEv1 e => e.wf
  | .sarEbCl e => e.wf
  | .sarEvCl e => e.wf
  | .retIw _ => true
  | .lesGvMp _ m => m.wf
  | .ldsGvMp _ m => m.wf
  | .movEbIb e _ => e.wf
  | .movEvIw e _ => e.wf
  | .enterIwIb _ _ => true
  | .retfIw _ => true
  | .intIb _ => true
  | .aamIb _ => true
  | .aadIb _ => true
  | .esc _ _ e => e.wf
  | .loopnzRel8 _ => true
  | .loopzRel8 _ => true
  | .loopRel8 _ => true
  | .jcxzRel8 _ => true
  | .inAlIb _ => true
  | .inAxIb _ => true
  | .outIbAl _ => true
  | .outIbAx _ => true
  | .callRel16 _ => true
  | .jmpRel16 _ => true
  | .jmpAp _ _ => true
  | .jmpRel8 _ => true
  | .testEbIb e _ => e.wf
  | .testEvIw e _ => e.wf
  | .notEb e => e.wf
  | .notEv e => e.wf
  | .negEb e => e.wf
  | .negEv e => e.wf
  | .mulEb e => e.wf
  | .mulEv e => e.wf
  | .imulEb e => e.wf
  | .imulEv e => e.wf
  | .divEb e => e.wf
  | .divEv e => e.wf
  | .idivEb e => e.wf
  | .idivEv e => e.wf
  | .incEb e => e.wf
  | .decEb e => e.wf
  | .incEv e => e.wf
  | .decEv e => e.wf
  | .callEv e => e.wf
  | .callMp m => m.wf
  | .jmpEv e => e.wf
  | .jmpMp m => m.wf
  | .pushEv e => e.wf
  | .pushEs => true
  | .pushCs => true
  | .pushSs => true
  | .pushDs => true
  | .popEs => true
  | .popSs => true
  | .popDs => true
  | .pfxEs => true
  | .pfxCs => true
  | .pfxSs => true
  | .pfxDs => true
  | .pfxLock => true
  | .pfxRepne => true
  | .pfxRep => true
  | .daa => true
  | .das => true
  | .aaa => true
  | .aas => true
  | .pusha => true
  | .popa => true
  | .insb => true
  | .insw => true
  | .outsb => true
  | .outsw => true
  | .nop => true
  | .cbw => true
  | .cwd => true
  | .wait => true
  | .pushf => true
  | .popf => true
  | .sahf => true
  | .lahf => true
  | .movsb => true
  | .movsw => true
  | .cmpsb => true
  | .cmpsw => true
  | .stosb => true
  | .stosw => true
  | .lodsb => true
  | .lodsw => true
  | .scasb => true
  | .scasw => true
  | .ret => true
  | .leave => true
  | .retf => true
  | .int3 => true
  | .into => true
  | .iret => true
  | .xlat => true
  | .inAlDx => true
  | .inAxDx => true
  | .outDxAl => true
  | .outDxAx => true
  | .hlt => true
  | .cmc => true
  | .clc => true
  | .stc => true
  | .cli => true
  | .sti => true
  | .cld => true
  | .std => true

end Sys2Proof
end

