-- ==== Sys2Proof/Decode.lean ====
section
/-! DEFINITION. Decoding and encoding (30_encoding.md).  `decode` reads one prefix or one instruction
from the front of a byte list; a byte or form that the decode table does not take is a gap with its
reason and length (R180, R186, R187).  `encode` writes an instruction's bytes. -/

namespace Sys2Proof

/-! ## Fields -/

/-- A 16-bit register from its 3-bit field (R160). -/
def Reg16.ofBits (b : BitVec 3) : Reg16 :=
  match b.toNat with
  | 0 => .ax | 1 => .cx | 2 => .dx | 3 => .bx | 4 => .sp | 5 => .bp | 6 => .si | _ => .di

/-- The 3-bit field of a 16-bit register (R31). -/
def Reg16.bits : Reg16 → BitVec 3
  | .ax => 0 | .cx => 1 | .dx => 2 | .bx => 3 | .sp => 4 | .bp => 5 | .si => 6 | .di => 7

/-- An 8-bit register from its 3-bit field (R160). -/
def Reg8.ofBits (b : BitVec 3) : Reg8 :=
  match b.toNat with
  | 0 => .al | 1 => .cl | 2 => .dl | 3 => .bl | 4 => .ah | 5 => .ch | 6 => .dh | _ => .bh

/-- The 3-bit field of an 8-bit register (R32). -/
def Reg8.bits : Reg8 → BitVec 3
  | .al => 0 | .cl => 1 | .dl => 2 | .bl => 3 | .ah => 4 | .ch => 5 | .dh => 6 | .bh => 7

/-- The base of a memory operand from its rm field (R163). -/
def Base.ofBits (b : BitVec 3) : Base :=
  match b.toNat with
  | 0 => .bxsi | 1 => .bxdi | 2 => .bpsi | 3 => .bpdi | 4 => .si | 5 => .di | 6 => .bp | _ => .bx

/-- The rm field of a base (R163). -/
def Base.bits : Base → BitVec 3
  | .bxsi => 0 | .bxdi => 1 | .bpsi => 2 | .bpdi => 3 | .si => 4 | .di => 5 | .bp => 6 | .bx => 7

/-- A multi-byte field is little-endian: its first byte is the low one (R167). -/
def leWord (first second : Byte) : Word := second ++ first

/-- The bytes of a little-endian word field (R167). -/
def wordBytes (w : Word) : List Byte := [w.extractLsb' 0 8, w.extractLsb' 8 8]

/-- The ModRM byte of its three fields (R161). -/
def modrmByte (md : BitVec 2) (reg rm : BitVec 3) : Byte := (md ++ reg ++ rm : BitVec (2 + 3 + 3))

/-- What the mod and rm fields name: a register index or a memory operand (R162, R163). -/
inductive RmField where
  | reg (n : BitVec 3)
  | mem (m : Mem)
deriving DecidableEq, Repr

/-- E of width 8. -/
def RmField.e8 : RmField → Rm8
  | .reg n => .reg (Reg8.ofBits n)
  | .mem m => .mem m

/-- E of width 16. -/
def RmField.e16 : RmField → Rm16
  | .reg n => .reg (Reg16.ofBits n)
  | .mem m => .mem m

/-- Reads the ModRM byte and its displacement (R161-R164): the reg field, what mod and rm name, and
the bytes after them. -/
def parseModRM : List Byte → Option (BitVec 3 × RmField × List Byte)
  | [] => none
  | b :: bs =>
    let md : BitVec 2 := b.extractLsb' 6 2
    let reg : BitVec 3 := b.extractLsb' 3 3
    let rm : BitVec 3 := b.extractLsb' 0 3
    if md = 3#2 then some (reg, .reg rm, bs)
    else if md = 2#2 then
      match bs with
      | lo :: hi :: rest => some (reg, .mem (.based (Base.ofBits rm) (.d16 (leWord lo hi))), rest)
      | _ => none
    else if md = 1#2 then
      match bs with
      | d :: rest => some (reg, .mem (.based (Base.ofBits rm) (.d8 d)), rest)
      | _ => none
    else if rm = 6#3 then
      match bs with
      | lo :: hi :: rest => some (reg, .mem (.direct (leWord lo hi)), rest)
      | _ => none
    else some (reg, .mem (.based (Base.ofBits rm) .none), bs)

/-! ## The decode table -/

/-- One member of a group opcode, by the operands that follow its ModRM byte (R168, R172). -/
inductive GroupEntry where
  | gap
  | e8 (f : Rm8 → Instr)
  | e16 (f : Rm16 → Instr)
  | m (f : Mem → Instr)
  | e8ib (f : Rm8 → Byte → Instr)
  | e16ib (f : Rm16 → Byte → Instr)
  | e16iw (f : Rm16 → Word → Instr)

/-- One entry of the opcode map, by the operand bytes that follow the opcode (R168, R169). -/
inductive OpEntry where
  | gap
  | plain (i : Instr)
  | ib (f : Byte → Instr)
  | iw (f : Word → Instr)
  | iwib (f : Word → Byte → Instr)
  | far (f : Word → Word → Instr)
  | eg8 (f : Rm8 → Reg8 → Instr)
  | eg16 (f : Rm16 → Reg16 → Instr)
  | mg16 (f : Mem → Reg16 → Instr)
  | eg16ib (f : Rm16 → Reg16 → Byte → Instr)
  | eg16iw (f : Rm16 → Reg16 → Word → Instr)
  | esc (f : BitVec 3 → Rm16 → Instr)
  | group (g : List GroupEntry)

/-- Group opcode 80 by its reg field (R172, R180). -/
def grp1_80 : List GroupEntry :=
  [.e8ib .addEbIb, .e8ib .orEbIb, .e8ib .adcEbIb, .e8ib .sbbEbIb, .e8ib .andEbIb, .e8ib .subEbIb, .e8ib .xorEbIb, .e8ib .cmpEbIb]

/-- Group opcode 81 by its reg field (R172, R180). -/
def grp1_81 : List GroupEntry :=
  [.e16iw .addEvIw, .e16iw .orEvIw, .e16iw .adcEvIw, .e16iw .sbbEvIw, .e16iw .andEvIw, .e16iw .subEvIw, .e16iw .xorEvIw, .e16iw .cmpEvIw]

/-- Group opcode 82 by its reg field (R172, R180). -/
def grp1_82 : List GroupEntry :=
  [.e8ib .addEbIbAlias, .e8ib .orEbIbAlias, .e8ib .adcEbIbAlias, .e8ib .sbbEbIbAlias, .e8ib .andEbIbAlias, .e8ib .subEbIbAlias, .e8ib .xorEbIbAlias, .e8ib .cmpEbIbAlias]

/-- Group opcode 83 by its reg field (R172, R180). -/
def grp1_83 : List GroupEntry :=
  [.e16ib .addEvIbs, .e16ib .orEvIbs, .e16ib .adcEvIbs, .e16ib .sbbEvIbs, .e16ib .andEvIbs, .e16ib .subEvIbs, .e16ib .xorEvIbs, .e16ib .cmpEvIbs]

/-- Group opcode 8C by its reg field (R172, R180). -/
def grpMovFromSreg : List GroupEntry :=
  [.e16 .movEwEs, .e16 .movEwCs, .e16 .movEwSs, .e16 .movEwDs, .gap, .gap, .gap, .gap]

/-- Group opcode 8E by its reg field (R172, R180). -/
def grpMovToSreg : List GroupEntry :=
  [.e16 .movEsEw, .gap, .e16 .movSsEw, .e16 .movDsEw, .gap, .gap, .gap, .gap]

/-- Group opcode 8F by its reg field (R172, R180). -/
def grp1a : List GroupEntry :=
  [.e16 .popEv, .gap, .gap, .gap, .gap, .gap, .gap, .gap]

/-- Group opcode C0 by its reg field (R172, R180). -/
def grp2_C0 : List GroupEntry :=
  [.e8ib .rolEbIb, .e8ib .rorEbIb, .e8ib .rclEbIb, .e8ib .rcrEbIb, .e8ib .shlEbIb, .e8ib .shrEbIb, .gap, .e8ib .sarEbIb]

/-- Group opcode C1 by its reg field (R172, R180). -/
def grp2_C1 : List GroupEntry :=
  [.e16ib .rolEvIb, .e16ib .rorEvIb, .e16ib .rclEvIb, .e16ib .rcrEvIb, .e16ib .shlEvIb, .e16ib .shrEvIb, .gap, .e16ib .sarEvIb]

/-- Group opcode C6 by its reg field (R172, R180). -/
def grp11_C6 : List GroupEntry :=
  [.e8ib .movEbIb, .gap, .gap, .gap, .gap, .gap, .gap, .gap]

/-- Group opcode C7 by its reg field (R172, R180). -/
def grp11_C7 : List GroupEntry :=
  [.e16iw .movEvIw, .gap, .gap, .gap, .gap, .gap, .gap, .gap]

/-- Group opcode D0 by its reg field (R172, R180). -/
def grp2_D0 : List GroupEntry :=
  [.e8 .rolEb1, .e8 .rorEb1, .e8 .rclEb1, .e8 .rcrEb1, .e8 .shlEb1, .e8 .shrEb1, .gap, .e8 .sarEb1]

/-- Group opcode D1 by its reg field (R172, R180). -/
def grp2_D1 : List GroupEntry :=
  [.e16 .rolEv1, .e16 .rorEv1, .e16 .rclEv1, .e16 .rcrEv1, .e16 .shlEv1, .e16 .shrEv1, .gap, .e16 .sarEv1]

/-- Group opcode D2 by its reg field (R172, R180). -/
def grp2_D2 : List GroupEntry :=
  [.e8 .rolEbCl, .e8 .rorEbCl, .e8 .rclEbCl, .e8 .rcrEbCl, .e8 .shlEbCl, .e8 .shrEbCl, .gap, .e8 .sarEbCl]

/-- Group opcode D3 by its reg field (R172, R180). -/
def grp2_D3 : List GroupEntry :=
  [.e16 .rolEvCl, .e16 .rorEvCl, .e16 .rclEvCl, .e16 .rcrEvCl, .e16 .shlEvCl, .e16 .shrEvCl, .gap, .e16 .sarEvCl]

/-- Group opcode F6 by its reg field (R172, R180). -/
def grp3_F6 : List GroupEntry :=
  [.e8ib .testEbIb, .gap, .e8 .notEb, .e8 .negEb, .e8 .mulEb, .e8 .imulEb, .e8 .divEb, .e8 .idivEb]

/-- Group opcode F7 by its reg field (R172, R180). -/
def grp3_F7 : List GroupEntry :=
  [.e16iw .testEvIw, .gap, .e16 .notEv, .e16 .negEv, .e16 .mulEv, .e16 .imulEv, .e16 .divEv, .e16 .idivEv]

/-- Group opcode FE by its reg field (R172, R180). -/
def grp4 : List GroupEntry :=
  [.e8 .incEb, .e8 .decEb, .gap, .gap, .gap, .gap, .gap, .gap]

/-- Group opcode FF by its reg field (R172, R180). -/
def grp5 : List GroupEntry :=
  [.e16 .incEv, .e16 .decEv, .e16 .callEv, .m .callMp, .e16 .jmpEv, .m .jmpMp, .e16 .pushEv, .gap]

/-- Row 0x of the opcode map (R171). -/
def opcodeRow0 : List OpEntry :=
  [.eg8 .addEbGb, .eg16 .addEvGv, .eg8 fun e g => .addGbEb g e, .eg16 fun e g => .addGvEv g e,
   .ib .addAlIb, .iw .addAxIw, .plain .pushEs, .plain .popEs,
   .eg8 .orEbGb, .eg16 .orEvGv, .eg8 fun e g => .orGbEb g e, .eg16 fun e g => .orGvEv g e,
   .ib .orAlIb, .iw .orAxIw, .plain .pushCs, .gap]

/-- Row 1x of the opcode map (R171). -/
def opcodeRow1 : List OpEntry :=
  [.eg8 .adcEbGb, .eg16 .adcEvGv, .eg8 fun e g => .adcGbEb g e, .eg16 fun e g => .adcGvEv g e,
   .ib .adcAlIb, .iw .adcAxIw, .plain .pushSs, .plain .popSs,
   .eg8 .sbbEbGb, .eg16 .sbbEvGv, .eg8 fun e g => .sbbGbEb g e, .eg16 fun e g => .sbbGvEv g e,
   .ib .sbbAlIb, .iw .sbbAxIw, .plain .pushDs, .plain .popDs]

/-- Row 2x of the opcode map (R171). -/
def opcodeRow2 : List OpEntry :=
  [.eg8 .andEbGb, .eg16 .andEvGv, .eg8 fun e g => .andGbEb g e, .eg16 fun e g => .andGvEv g e,
   .ib .andAlIb, .iw .andAxIw, .plain .pfxEs, .plain .daa,
   .eg8 .subEbGb, .eg16 .subEvGv, .eg8 fun e g => .subGbEb g e, .eg16 fun e g => .subGvEv g e,
   .ib .subAlIb, .iw .subAxIw, .plain .pfxCs, .plain .das]

/-- Row 3x of the opcode map (R171). -/
def opcodeRow3 : List OpEntry :=
  [.eg8 .xorEbGb, .eg16 .xorEvGv, .eg8 fun e g => .xorGbEb g e, .eg16 fun e g => .xorGvEv g e,
   .ib .xorAlIb, .iw .xorAxIw, .plain .pfxSs, .plain .aaa,
   .eg8 .cmpEbGb, .eg16 .cmpEvGv, .eg8 fun e g => .cmpGbEb g e, .eg16 fun e g => .cmpGvEv g e,
   .ib .cmpAlIb, .iw .cmpAxIw, .plain .pfxDs, .plain .aas]

/-- Row 4x of the opcode map (R171). -/
def opcodeRow4 : List OpEntry :=
  [.plain (.incR16 .ax), .plain (.incR16 .cx), .plain (.incR16 .dx), .plain (.incR16 .bx),
   .plain (.incR16 .sp), .plain (.incR16 .bp), .plain (.incR16 .si), .plain (.incR16 .di),
   .plain (.decR16 .ax), .plain (.decR16 .cx), .plain (.decR16 .dx), .plain (.decR16 .bx),
   .plain (.decR16 .sp), .plain (.decR16 .bp), .plain (.decR16 .si), .plain (.decR16 .di)]

/-- Row 5x of the opcode map (R171). -/
def opcodeRow5 : List OpEntry :=
  [.plain (.pushR16 .ax), .plain (.pushR16 .cx), .plain (.pushR16 .dx), .plain (.pushR16 .bx),
   .plain (.pushR16 .sp), .plain (.pushR16 .bp), .plain (.pushR16 .si), .plain (.pushR16 .di),
   .plain (.popR16 .ax), .plain (.popR16 .cx), .plain (.popR16 .dx), .plain (.popR16 .bx),
   .plain (.popR16 .sp), .plain (.popR16 .bp), .plain (.popR16 .si), .plain (.popR16 .di)]

/-- Row 6x of the opcode map (R171). -/
def opcodeRow6 : List OpEntry :=
  [.plain .pusha, .plain .popa, .mg16 fun m g => .boundGvMa g m, .gap,
   .gap, .gap, .gap, .gap,
   .iw .pushIw, .eg16iw fun e g i => .imulGvEvIw g e i, .ib .pushIbs, .eg16ib fun e g i => .imulGvEvIbs g e i,
   .plain .insb, .plain .insw, .plain .outsb, .plain .outsw]

/-- Row 7x of the opcode map (R171). -/
def opcodeRow7 : List OpEntry :=
  [.ib .joRel8, .ib .jnoRel8, .ib .jbRel8, .ib .jnbRel8,
   .ib .jzRel8, .ib .jnzRel8, .ib .jbeRel8, .ib .jaRel8,
   .ib .jsRel8, .ib .jnsRel8, .ib .jpRel8, .ib .jnpRel8,
   .ib .jlRel8, .ib .jgeRel8, .ib .jleRel8, .ib .jgRel8]

/-- Row 8x of the opcode map (R171). -/
def opcodeRow8 : List OpEntry :=
  [.group grp1_80, .group grp1_81, .group grp1_82, .group grp1_83,
   .eg8 .testEbGb, .eg16 .testEvGv, .eg8 .xchgEbGb, .eg16 .xchgEvGv,
   .eg8 .movEbGb, .eg16 .movEvGv, .eg8 fun e g => .movGbEb g e, .eg16 fun e g => .movGvEv g e,
   .group grpMovFromSreg, .mg16 fun m g => .leaGvM g m, .group grpMovToSreg, .group grp1a]

/-- Row 9x of the opcode map (R171). -/
def opcodeRow9 : List OpEntry :=
  [.plain .nop, .plain (.xchgR16Ax .cx), .plain (.xchgR16Ax .dx), .plain (.xchgR16Ax .bx),
   .plain (.xchgR16Ax .sp), .plain (.xchgR16Ax .bp), .plain (.xchgR16Ax .si), .plain (.xchgR16Ax .di),
   .plain .cbw, .plain .cwd, .far .callAp, .plain .wait,
   .plain .pushf, .plain .popf, .plain .sahf, .plain .lahf]

/-- Row Ax of the opcode map (R171). -/
def opcodeRowA : List OpEntry :=
  [.iw .movAlOb, .iw .movAxOw, .iw .movObAl, .iw .movOwAx,
   .plain .movsb, .plain .movsw, .plain .cmpsb, .plain .cmpsw,
   .ib .testAlIb, .iw .testAxIw, .plain .stosb, .plain .stosw,
   .plain .lodsb, .plain .lodsw, .plain .scasb, .plain .scasw]

/-- Row Bx of the opcode map (R171). -/
def opcodeRowB : List OpEntry :=
  [.ib (.movR8Ib .al), .ib (.movR8Ib .cl), .ib (.movR8Ib .dl), .ib (.movR8Ib .bl),
   .ib (.movR8Ib .ah), .ib (.movR8Ib .ch), .ib (.movR8Ib .dh), .ib (.movR8Ib .bh),
   .iw (.movR16Iw .ax), .iw (.movR16Iw .cx), .iw (.movR16Iw .dx), .iw (.movR16Iw .bx),
   .iw (.movR16Iw .sp), .iw (.movR16Iw .bp), .iw (.movR16Iw .si), .iw (.movR16Iw .di)]

/-- Row Cx of the opcode map (R171). -/
def opcodeRowC : List OpEntry :=
  [.group grp2_C0, .group grp2_C1, .iw .retIw, .plain .ret,
   .mg16 fun m g => .lesGvMp g m, .mg16 fun m g => .ldsGvMp g m, .group grp11_C6, .group grp11_C7,
   .iwib .enterIwIb, .plain .leave, .iw .retfIw, .plain .retf,
   .plain .int3, .ib .intIb, .plain .into, .plain .iret]

/-- Row Dx of the opcode map (R171). -/
def opcodeRowD : List OpEntry :=
  [.group grp2_D0, .group grp2_D1, .group grp2_D2, .group grp2_D3,
   .ib .aamIb, .ib .aadIb, .gap, .plain .xlat,
   .esc (.esc 0), .esc (.esc 1), .esc (.esc 2), .esc (.esc 3),
   .esc (.esc 4), .esc (.esc 5), .esc (.esc 6), .esc (.esc 7)]

/-- Row Ex of the opcode map (R171). -/
def opcodeRowE : List OpEntry :=
  [.ib .loopnzRel8, .ib .loopzRel8, .ib .loopRel8, .ib .jcxzRel8,
   .ib .inAlIb, .ib .inAxIb, .ib .outIbAl, .ib .outIbAx,
   .iw .callRel16, .iw .jmpRel16, .far .jmpAp, .ib .jmpRel8,
   .plain .inAlDx, .plain .inAxDx, .plain .outDxAl, .plain .outDxAx]

/-- Row Fx of the opcode map (R171). -/
def opcodeRowF : List OpEntry :=
  [.plain .pfxLock, .gap, .plain .pfxRepne, .plain .pfxRep,
   .plain .hlt, .plain .cmc, .group grp3_F6, .group grp3_F7,
   .plain .clc, .plain .stc, .plain .cli, .plain .sti,
   .plain .cld, .plain .std, .group grp4, .group grp5]

/-- The one-byte opcode map (R171): entry n is opcode n. -/
def opcodeMap : List OpEntry :=
  opcodeRow0 ++ opcodeRow1 ++ opcodeRow2 ++ opcodeRow3 ++ opcodeRow4 ++ opcodeRow5 ++ opcodeRow6 ++ opcodeRow7 ++
  opcodeRow8 ++ opcodeRow9 ++ opcodeRowA ++ opcodeRowB ++ opcodeRowC ++ opcodeRowD ++ opcodeRowE ++ opcodeRowF

/-! ## Decoding -/

/-- Why a byte or form is a decode gap (R180). -/
inductive GapReason where
  /-- The opcode byte is not in the decode table. -/
  | opcode
  /-- The group opcode has no member for this reg field. -/
  | group
  /-- The operand must be memory and mod is 11. -/
  | registerForm
deriving DecidableEq, Repr

/-- What `decode` reads at the front of a byte list: an instruction (or prefix) with the bytes after
it, a gap with its reason and its length (R187), or too few bytes. -/
inductive Decoded where
  | instr (i : Instr) (rest : List Byte)
  | gap (why : GapReason) (len : Nat)
  | short
deriving DecidableEq, Repr

/-- An 8-bit immediate after the bytes read so far. -/
def withIb (bs : List Byte) (f : Byte → Instr) : Decoded :=
  match bs with
  | b :: rest => .instr (f b) rest
  | _ => .short

/-- A 16-bit immediate after the bytes read so far. -/
def withIw (bs : List Byte) (f : Word → Instr) : Decoded :=
  match bs with
  | lo :: hi :: rest => .instr (f (leWord lo hi)) rest
  | _ => .short

/-- A group member on its operand bytes; `len` is the length up to the displacement (R187). -/
def decodeGroup (g : GroupEntry) (len : Nat) (e : RmField) (bs : List Byte) : Decoded :=
  match g with
  | .gap => .gap .group len
  | .e8 f => .instr (f e.e8) bs
  | .e16 f => .instr (f e.e16) bs
  | .m f =>
    match e with
    | .mem m => .instr (f m) bs
    | .reg _ => .gap .registerForm len
  | .e8ib f => withIb bs (f e.e8)
  | .e16ib f => withIb bs (f e.e16)
  | .e16iw f => withIw bs (f e.e16)

/-- An opcode with a ModRM byte: `k` continues with the reg field, the operand, the length up to the
displacement and the bytes after it. -/
def withModRM (bs : List Byte) (k : BitVec 3 → RmField → Nat → List Byte → Decoded) : Decoded :=
  match parseModRM bs with
  | some (reg, e, rest) => k reg e (1 + (bs.length - rest.length)) rest
  | none => .short

/-- An entry of the opcode map on the bytes after the opcode (R170). -/
def decodeEntry (entry : OpEntry) (bs : List Byte) : Decoded :=
  match entry with
  | .gap => .gap .opcode 1
  | .plain i => .instr i bs
  | .ib f => withIb bs f
  | .iw f => withIw bs f
  | .iwib f =>
    match bs with
    | lo :: hi :: b :: rest => .instr (f (leWord lo hi) b) rest
    | _ => .short
  | .far f =>
    match bs with
    | a :: b :: c :: d :: rest => .instr (f (leWord a b) (leWord c d)) rest
    | _ => .short
  | .eg8 f => withModRM bs fun reg e _ rest => .instr (f e.e8 (Reg8.ofBits reg)) rest
  | .eg16 f => withModRM bs fun reg e _ rest => .instr (f e.e16 (Reg16.ofBits reg)) rest
  | .mg16 f =>
    withModRM bs fun reg e len rest =>
      match e with
      | .mem m => .instr (f m (Reg16.ofBits reg)) rest
      | .reg _ => .gap .registerForm len
  | .eg16ib f => withModRM bs fun reg e _ rest => withIb rest (f e.e16 (Reg16.ofBits reg))
  | .eg16iw f => withModRM bs fun reg e _ rest => withIw rest (f e.e16 (Reg16.ofBits reg))
  | .esc f => withModRM bs fun reg e _ rest => .instr (f reg e.e16) rest
  | .group g => withModRM bs fun reg e len rest => decodeGroup (g.getD reg.toNat .gap) len e rest

/-- Decodes one prefix or one instruction at the front of a byte list (R170). -/
def decode : List Byte → Decoded
  | [] => .short
  | b :: bs => decodeEntry (opcodeMap.getD b.toNat .gap) bs

/-- The prefixes (R151): bytes that only record something for the instruction they precede. -/
def Instr.isPrefix : Instr → Bool
  | .pfxEs | .pfxCs | .pfxSs | .pfxDs | .pfxLock | .pfxRepne | .pfxRep => true
  | _ => false

/-! ## Encoding -/

/-- The ModRM byte and displacement of a memory operand (R163, R164). -/
def encodeMem (reg : BitVec 3) : Mem → List Byte
  | .direct off => modrmByte 0#2 reg 6#3 :: wordBytes off
  | .based b .none => [modrmByte 0#2 reg b.bits]
  | .based b (.d8 d) => [modrmByte 1#2 reg b.bits, d]
  | .based b (.d16 d) => modrmByte 2#2 reg b.bits :: wordBytes d

/-- The ModRM byte and displacement of E of width 8 (R162). -/
def encodeE8 (reg : BitVec 3) : Rm8 → List Byte
  | .reg r => [modrmByte 3#2 reg r.bits]
  | .mem m => encodeMem reg m

/-- The ModRM byte and displacement of E of width 16 (R162). -/
def encodeE16 (reg : BitVec 3) : Rm16 → List Byte
  | .reg r => [modrmByte 3#2 reg r.bits]
  | .mem m => encodeMem reg m

/-- The bytes of an instruction, in fetch order (R150, R168, R171, R172). -/
def encode : Instr → List Byte
  | .addEbGb e g => 0x00#8 :: encodeE8 g.bits e
  | .addEvGv e g => 0x01#8 :: encodeE16 g.bits e
  | .addGbEb g e => 0x02#8 :: encodeE8 g.bits e
  | .addGvEv g e => 0x03#8 :: encodeE16 g.bits e
  | .addAlIb i => [0x04#8, i]
  | .addAxIw i => 0x05#8 :: wordBytes i
  | .addEbIb e i => 0x80#8 :: (encodeE8 0#3 e ++ [i])
  | .addEvIw e i => 0x81#8 :: (encodeE16 0#3 e ++ wordBytes i)
  | .addEbIbAlias e i => 0x82#8 :: (encodeE8 0#3 e ++ [i])
  | .addEvIbs e i => 0x83#8 :: (encodeE16 0#3 e ++ [i])
  | .orEbGb e g => 0x08#8 :: encodeE8 g.bits e
  | .orEvGv e g => 0x09#8 :: encodeE16 g.bits e
  | .orGbEb g e => 0x0A#8 :: encodeE8 g.bits e
  | .orGvEv g e => 0x0B#8 :: encodeE16 g.bits e
  | .orAlIb i => [0x0C#8, i]
  | .orAxIw i => 0x0D#8 :: wordBytes i
  | .orEbIb e i => 0x80#8 :: (encodeE8 1#3 e ++ [i])
  | .orEvIw e i => 0x81#8 :: (encodeE16 1#3 e ++ wordBytes i)
  | .orEbIbAlias e i => 0x82#8 :: (encodeE8 1#3 e ++ [i])
  | .orEvIbs e i => 0x83#8 :: (encodeE16 1#3 e ++ [i])
  | .adcEbGb e g => 0x10#8 :: encodeE8 g.bits e
  | .adcEvGv e g => 0x11#8 :: encodeE16 g.bits e
  | .adcGbEb g e => 0x12#8 :: encodeE8 g.bits e
  | .adcGvEv g e => 0x13#8 :: encodeE16 g.bits e
  | .adcAlIb i => [0x14#8, i]
  | .adcAxIw i => 0x15#8 :: wordBytes i
  | .adcEbIb e i => 0x80#8 :: (encodeE8 2#3 e ++ [i])
  | .adcEvIw e i => 0x81#8 :: (encodeE16 2#3 e ++ wordBytes i)
  | .adcEbIbAlias e i => 0x82#8 :: (encodeE8 2#3 e ++ [i])
  | .adcEvIbs e i => 0x83#8 :: (encodeE16 2#3 e ++ [i])
  | .sbbEbGb e g => 0x18#8 :: encodeE8 g.bits e
  | .sbbEvGv e g => 0x19#8 :: encodeE16 g.bits e
  | .sbbGbEb g e => 0x1A#8 :: encodeE8 g.bits e
  | .sbbGvEv g e => 0x1B#8 :: encodeE16 g.bits e
  | .sbbAlIb i => [0x1C#8, i]
  | .sbbAxIw i => 0x1D#8 :: wordBytes i
  | .sbbEbIb e i => 0x80#8 :: (encodeE8 3#3 e ++ [i])
  | .sbbEvIw e i => 0x81#8 :: (encodeE16 3#3 e ++ wordBytes i)
  | .sbbEbIbAlias e i => 0x82#8 :: (encodeE8 3#3 e ++ [i])
  | .sbbEvIbs e i => 0x83#8 :: (encodeE16 3#3 e ++ [i])
  | .andEbGb e g => 0x20#8 :: encodeE8 g.bits e
  | .andEvGv e g => 0x21#8 :: encodeE16 g.bits e
  | .andGbEb g e => 0x22#8 :: encodeE8 g.bits e
  | .andGvEv g e => 0x23#8 :: encodeE16 g.bits e
  | .andAlIb i => [0x24#8, i]
  | .andAxIw i => 0x25#8 :: wordBytes i
  | .andEbIb e i => 0x80#8 :: (encodeE8 4#3 e ++ [i])
  | .andEvIw e i => 0x81#8 :: (encodeE16 4#3 e ++ wordBytes i)
  | .andEbIbAlias e i => 0x82#8 :: (encodeE8 4#3 e ++ [i])
  | .andEvIbs e i => 0x83#8 :: (encodeE16 4#3 e ++ [i])
  | .subEbGb e g => 0x28#8 :: encodeE8 g.bits e
  | .subEvGv e g => 0x29#8 :: encodeE16 g.bits e
  | .subGbEb g e => 0x2A#8 :: encodeE8 g.bits e
  | .subGvEv g e => 0x2B#8 :: encodeE16 g.bits e
  | .subAlIb i => [0x2C#8, i]
  | .subAxIw i => 0x2D#8 :: wordBytes i
  | .subEbIb e i => 0x80#8 :: (encodeE8 5#3 e ++ [i])
  | .subEvIw e i => 0x81#8 :: (encodeE16 5#3 e ++ wordBytes i)
  | .subEbIbAlias e i => 0x82#8 :: (encodeE8 5#3 e ++ [i])
  | .subEvIbs e i => 0x83#8 :: (encodeE16 5#3 e ++ [i])
  | .xorEbGb e g => 0x30#8 :: encodeE8 g.bits e
  | .xorEvGv e g => 0x31#8 :: encodeE16 g.bits e
  | .xorGbEb g e => 0x32#8 :: encodeE8 g.bits e
  | .xorGvEv g e => 0x33#8 :: encodeE16 g.bits e
  | .xorAlIb i => [0x34#8, i]
  | .xorAxIw i => 0x35#8 :: wordBytes i
  | .xorEbIb e i => 0x80#8 :: (encodeE8 6#3 e ++ [i])
  | .xorEvIw e i => 0x81#8 :: (encodeE16 6#3 e ++ wordBytes i)
  | .xorEbIbAlias e i => 0x82#8 :: (encodeE8 6#3 e ++ [i])
  | .xorEvIbs e i => 0x83#8 :: (encodeE16 6#3 e ++ [i])
  | .cmpEbGb e g => 0x38#8 :: encodeE8 g.bits e
  | .cmpEvGv e g => 0x39#8 :: encodeE16 g.bits e
  | .cmpGbEb g e => 0x3A#8 :: encodeE8 g.bits e
  | .cmpGvEv g e => 0x3B#8 :: encodeE16 g.bits e
  | .cmpAlIb i => [0x3C#8, i]
  | .cmpAxIw i => 0x3D#8 :: wordBytes i
  | .cmpEbIb e i => 0x80#8 :: (encodeE8 7#3 e ++ [i])
  | .cmpEvIw e i => 0x81#8 :: (encodeE16 7#3 e ++ wordBytes i)
  | .cmpEbIbAlias e i => 0x82#8 :: (encodeE8 7#3 e ++ [i])
  | .cmpEvIbs e i => 0x83#8 :: (encodeE16 7#3 e ++ [i])
  | .incR16 r => [0x40#8 + r.bits.setWidth 8]
  | .decR16 r => [0x48#8 + r.bits.setWidth 8]
  | .pushR16 r => [0x50#8 + r.bits.setWidth 8]
  | .popR16 r => [0x58#8 + r.bits.setWidth 8]
  | .boundGvMa g m => 0x62#8 :: encodeMem g.bits m
  | .pushIw i => 0x68#8 :: wordBytes i
  | .imulGvEvIw g e i => 0x69#8 :: (encodeE16 g.bits e ++ wordBytes i)
  | .pushIbs i => [0x6A#8, i]
  | .imulGvEvIbs g e i => 0x6B#8 :: (encodeE16 g.bits e ++ [i])
  | .joRel8 rel => [0x70#8, rel]
  | .jnoRel8 rel => [0x71#8, rel]
  | .jbRel8 rel => [0x72#8, rel]
  | .jnbRel8 rel => [0x73#8, rel]
  | .jzRel8 rel => [0x74#8, rel]
  | .jnzRel8 rel => [0x75#8, rel]
  | .jbeRel8 rel => [0x76#8, rel]
  | .jaRel8 rel => [0x77#8, rel]
  | .jsRel8 rel => [0x78#8, rel]
  | .jnsRel8 rel => [0x79#8, rel]
  | .jpRel8 rel => [0x7A#8, rel]
  | .jnpRel8 rel => [0x7B#8, rel]
  | .jlRel8 rel => [0x7C#8, rel]
  | .jgeRel8 rel => [0x7D#8, rel]
  | .jleRel8 rel => [0x7E#8, rel]
  | .jgRel8 rel => [0x7F#8, rel]
  | .testEbGb e g => 0x84#8 :: encodeE8 g.bits e
  | .testEvGv e g => 0x85#8 :: encodeE16 g.bits e
  | .xchgEbGb e g => 0x86#8 :: encodeE8 g.bits e
  | .xchgEvGv e g => 0x87#8 :: encodeE16 g.bits e
  | .movEbGb e g => 0x88#8 :: encodeE8 g.bits e
  | .movEvGv e g => 0x89#8 :: encodeE16 g.bits e
  | .movGbEb g e => 0x8A#8 :: encodeE8 g.bits e
  | .movGvEv g e => 0x8B#8 :: encodeE16 g.bits e
  | .movEwEs e => 0x8C#8 :: encodeE16 0#3 e
  | .movEwCs e => 0x8C#8 :: encodeE16 1#3 e
  | .movEwSs e => 0x8C#8 :: encodeE16 2#3 e
  | .movEwDs e => 0x8C#8 :: encodeE16 3#3 e
  | .leaGvM g m => 0x8D#8 :: encodeMem g.bits m
  | .movEsEw e => 0x8E#8 :: encodeE16 0#3 e
  | .movSsEw e => 0x8E#8 :: encodeE16 2#3 e
  | .movDsEw e => 0x8E#8 :: encodeE16 3#3 e
  | .popEv e => 0x8F#8 :: encodeE16 0#3 e
  | .xchgR16Ax r => [0x90#8 + r.bits.setWidth 8]
  | .callAp off sg => 0x9A#8 :: (wordBytes off ++ wordBytes sg)
  | .movAlOb o => 0xA0#8 :: wordBytes o
  | .movAxOw o => 0xA1#8 :: wordBytes o
  | .movObAl o => 0xA2#8 :: wordBytes o
  | .movOwAx o => 0xA3#8 :: wordBytes o
  | .testAlIb i => [0xA8#8, i]
  | .testAxIw i => 0xA9#8 :: wordBytes i
  | .movR8Ib r i => [0xB0#8 + r.bits.setWidth 8, i]
  | .movR16Iw r i => (0xB8#8 + r.bits.setWidth 8) :: wordBytes i
  | .rolEbIb e c => 0xC0#8 :: (encodeE8 0#3 e ++ [c])
  | .rolEvIb e c => 0xC1#8 :: (encodeE16 0#3 e ++ [c])
  | .rolEb1 e => 0xD0#8 :: encodeE8 0#3 e
  | .rolEv1 e => 0xD1#8 :: encodeE16 0#3 e
  | .rolEbCl e => 0xD2#8 :: encodeE8 0#3 e
  | .rolEvCl e => 0xD3#8 :: encodeE16 0#3 e
  | .rorEbIb e c => 0xC0#8 :: (encodeE8 1#3 e ++ [c])
  | .rorEvIb e c => 0xC1#8 :: (encodeE16 1#3 e ++ [c])
  | .rorEb1 e => 0xD0#8 :: encodeE8 1#3 e
  | .rorEv1 e => 0xD1#8 :: encodeE16 1#3 e
  | .rorEbCl e => 0xD2#8 :: encodeE8 1#3 e
  | .rorEvCl e => 0xD3#8 :: encodeE16 1#3 e
  | .rclEbIb e c => 0xC0#8 :: (encodeE8 2#3 e ++ [c])
  | .rclEvIb e c => 0xC1#8 :: (encodeE16 2#3 e ++ [c])
  | .rclEb1 e => 0xD0#8 :: encodeE8 2#3 e
  | .rclEv1 e => 0xD1#8 :: encodeE16 2#3 e
  | .rclEbCl e => 0xD2#8 :: encodeE8 2#3 e
  | .rclEvCl e => 0xD3#8 :: encodeE16 2#3 e
  | .rcrEbIb e c => 0xC0#8 :: (encodeE8 3#3 e ++ [c])
  | .rcrEvIb e c => 0xC1#8 :: (encodeE16 3#3 e ++ [c])
  | .rcrEb1 e => 0xD0#8 :: encodeE8 3#3 e
  | .rcrEv1 e => 0xD1#8 :: encodeE16 3#3 e
  | .rcrEbCl e => 0xD2#8 :: encodeE8 3#3 e
  | .rcrEvCl e => 0xD3#8 :: encodeE16 3#3 e
  | .shlEbIb e c => 0xC0#8 :: (encodeE8 4#3 e ++ [c])
  | .shlEvIb e c => 0xC1#8 :: (encodeE16 4#3 e ++ [c])
  | .shlEb1 e => 0xD0#8 :: encodeE8 4#3 e
  | .shlEv1 e => 0xD1#8 :: encodeE16 4#3 e
  | .shlEbCl e => 0xD2#8 :: encodeE8 4#3 e
  | .shlEvCl e => 0xD3#8 :: encodeE16 4#3 e
  | .shrEbIb e c => 0xC0#8 :: (encodeE8 5#3 e ++ [c])
  | .shrEvIb e c => 0xC1#8 :: (encodeE16 5#3 e ++ [c])
  | .shrEb1 e => 0xD0#8 :: encodeE8 5#3 e
  | .shrEv1 e => 0xD1#8 :: encodeE16 5#3 e
  | .shrEbCl e => 0xD2#8 :: encodeE8 5#3 e
  | .shrEvCl e => 0xD3#8 :: encodeE16 5#3 e
  | .sarEbIb e c => 0xC0#8 :: (encodeE8 7#3 e ++ [c])
  | .sarEvIb e c => 0xC1#8 :: (encodeE16 7#3 e ++ [c])
  | .sarEb1 e => 0xD0#8 :: encodeE8 7#3 e
  | .sarEv1 e => 0xD1#8 :: encodeE16 7#3 e
  | .sarEbCl e => 0xD2#8 :: encodeE8 7#3 e
  | .sarEvCl e => 0xD3#8 :: encodeE16 7#3 e
  | .retIw i => 0xC2#8 :: wordBytes i
  | .lesGvMp g m => 0xC4#8 :: encodeMem g.bits m
  | .ldsGvMp g m => 0xC5#8 :: encodeMem g.bits m
  | .movEbIb e i => 0xC6#8 :: (encodeE8 0#3 e ++ [i])
  | .movEvIw e i => 0xC7#8 :: (encodeE16 0#3 e ++ wordBytes i)
  | .enterIwIb size level => 0xC8#8 :: (wordBytes size ++ [level])
  | .retfIw i => 0xCA#8 :: wordBytes i
  | .intIb n => [0xCD#8, n]
  | .aamIb i => [0xD4#8, i]
  | .aadIb i => [0xD5#8, i]
  | .esc n x e => (0xD8#8 + n.setWidth 8) :: encodeE16 x e
  | .loopnzRel8 rel => [0xE0#8, rel]
  | .loopzRel8 rel => [0xE1#8, rel]
  | .loopRel8 rel => [0xE2#8, rel]
  | .jcxzRel8 rel => [0xE3#8, rel]
  | .inAlIb p => [0xE4#8, p]
  | .inAxIb p => [0xE5#8, p]
  | .outIbAl p => [0xE6#8, p]
  | .outIbAx p => [0xE7#8, p]
  | .callRel16 rel => 0xE8#8 :: wordBytes rel
  | .jmpRel16 rel => 0xE9#8 :: wordBytes rel
  | .jmpAp off sg => 0xEA#8 :: (wordBytes off ++ wordBytes sg)
  | .jmpRel8 rel => [0xEB#8, rel]
  | .testEbIb e i => 0xF6#8 :: (encodeE8 0#3 e ++ [i])
  | .testEvIw e i => 0xF7#8 :: (encodeE16 0#3 e ++ wordBytes i)
  | .notEb e => 0xF6#8 :: encodeE8 2#3 e
  | .notEv e => 0xF7#8 :: encodeE16 2#3 e
  | .negEb e => 0xF6#8 :: encodeE8 3#3 e
  | .negEv e => 0xF7#8 :: encodeE16 3#3 e
  | .mulEb e => 0xF6#8 :: encodeE8 4#3 e
  | .mulEv e => 0xF7#8 :: encodeE16 4#3 e
  | .imulEb e => 0xF6#8 :: encodeE8 5#3 e
  | .imulEv e => 0xF7#8 :: encodeE16 5#3 e
  | .divEb e => 0xF6#8 :: encodeE8 6#3 e
  | .divEv e => 0xF7#8 :: encodeE16 6#3 e
  | .idivEb e => 0xF6#8 :: encodeE8 7#3 e
  | .idivEv e => 0xF7#8 :: encodeE16 7#3 e
  | .incEb e => 0xFE#8 :: encodeE8 0#3 e
  | .decEb e => 0xFE#8 :: encodeE8 1#3 e
  | .incEv e => 0xFF#8 :: encodeE16 0#3 e
  | .decEv e => 0xFF#8 :: encodeE16 1#3 e
  | .callEv e => 0xFF#8 :: encodeE16 2#3 e
  | .callMp m => 0xFF#8 :: encodeMem 3#3 m
  | .jmpEv e => 0xFF#8 :: encodeE16 4#3 e
  | .jmpMp m => 0xFF#8 :: encodeMem 5#3 m
  | .pushEv e => 0xFF#8 :: encodeE16 6#3 e
  | .pushEs => [0x06#8]
  | .pushCs => [0x0E#8]
  | .pushSs => [0x16#8]
  | .pushDs => [0x1E#8]
  | .popEs => [0x07#8]
  | .popSs => [0x17#8]
  | .popDs => [0x1F#8]
  | .pfxEs => [0x26#8]
  | .pfxCs => [0x2E#8]
  | .pfxSs => [0x36#8]
  | .pfxDs => [0x3E#8]
  | .pfxLock => [0xF0#8]
  | .pfxRepne => [0xF2#8]
  | .pfxRep => [0xF3#8]
  | .daa => [0x27#8]
  | .das => [0x2F#8]
  | .aaa => [0x37#8]
  | .aas => [0x3F#8]
  | .pusha => [0x60#8]
  | .popa => [0x61#8]
  | .insb => [0x6C#8]
  | .insw => [0x6D#8]
  | .outsb => [0x6E#8]
  | .outsw => [0x6F#8]
  | .nop => [0x90#8]
  | .cbw => [0x98#8]
  | .cwd => [0x99#8]
  | .wait => [0x9B#8]
  | .pushf => [0x9C#8]
  | .popf => [0x9D#8]
  | .sahf => [0x9E#8]
  | .lahf => [0x9F#8]
  | .movsb => [0xA4#8]
  | .movsw => [0xA5#8]
  | .cmpsb => [0xA6#8]
  | .cmpsw => [0xA7#8]
  | .stosb => [0xAA#8]
  | .stosw => [0xAB#8]
  | .lodsb => [0xAC#8]
  | .lodsw => [0xAD#8]
  | .scasb => [0xAE#8]
  | .scasw => [0xAF#8]
  | .ret => [0xC3#8]
  | .leave => [0xC9#8]
  | .retf => [0xCB#8]
  | .int3 => [0xCC#8]
  | .into => [0xCE#8]
  | .iret => [0xCF#8]
  | .xlat => [0xD7#8]
  | .inAlDx => [0xEC#8]
  | .inAxDx => [0xED#8]
  | .outDxAl => [0xEE#8]
  | .outDxAx => [0xEF#8]
  | .hlt => [0xF4#8]
  | .cmc => [0xF5#8]
  | .clc => [0xF8#8]
  | .stc => [0xF9#8]
  | .cli => [0xFA#8]
  | .sti => [0xFB#8]
  | .cld => [0xFC#8]
  | .std => [0xFD#8]

/-- The length of an instruction in bytes, without the prefixes before it (R150). -/
def Instr.len (i : Instr) : Nat := (encode i).length

/-! ## Words of the opcode table -/

/-- The longest instruction without prefixes (R150). -/
def maxLen : Nat := 6

/-- The first `n` bytes of a table word's 16-bit words.  spec/opcode_table.json numbers a key as
`(opcode << 8) | ModRM`, so in each 16-bit word the byte fetched first is bits 15..8; a word of one
byte is that byte. -/
def tableBytes (nbits w : Nat) : List Byte :=
  if nbits ≤ 8 then [BitVec.ofNat 8 w]
  else (List.range ((nbits + 7) / 8)).map fun k =>
    BitVec.ofNat 8 (w / 2 ^ (16 * (k / 2) + (if k % 2 = 0 then 8 else 0)))

/-- The bytes of a table word with zero bytes after it, up to the longest instruction. -/
def tableInstrBytes (nbits w : Nat) : List Byte :=
  tableBytes nbits w ++ List.replicate (maxLen - (tableBytes nbits w).length) 0#8

/-- The instruction the decoder reads from a table word of `nbits` bits, every bit above them 0. -/
def decodeTableWord (nbits w : Nat) : Option Instr :=
  match decode (tableInstrBytes nbits w) with
  | .instr i _ => some i
  | _ => none

end Sys2Proof
end

