-- ==== Sys2Proof/Config.lean ====
section
/-! DEFINITION. The parameters of the machine (00_scope.md R10) and its free values.

`Cfg` holds the parameters the spec decides, each with its decided default.  `OpenCfg` holds the
parameters the spec leaves OPEN.  Both are plain data and stand in the state as constants of a run (DESIGN CHOICE, Log 2).
What is a function of the spec's `Cfg` and has no decided value is an opaque constant here: nothing can
be proved of its values. -/

namespace Sys2Proof

/-! ## Choices -/

/-- The nine flags of FLAGS (R38). -/
inductive Flag where
  | cf | pf | af | zf | sf | tf | if_ | df | of
deriving DecidableEq, Repr, Inhabited

/-- `RESET_GPR` and `RESET_RAM` (R70, R80). -/
inductive ResetMode where
  | unset | zero
deriving DecidableEq, Repr, Inhabited

/-- `DIV_ERR_RETURN` (D12). -/
inductive DivErrReturn where
  | next | current
deriving DecidableEq, Repr, Inhabited

/-- `INT_SHADOW` (D13). -/
inductive IntShadow where
  | none | ssAndSti
deriving DecidableEq, Repr, Inhabited

/-- `TIMER_FIRE` (D38). -/
inductive TimerFire where
  | onBorrowFromZero | onReachZero
deriving DecidableEq, Repr, Inhabited

/-- `EnvelopeStep`: the default of R582, or a replacement (D45). -/
inductive EnvelopeStep where
  | standard | custom
deriving DecidableEq, Repr, Inhabited

/-- The handlers of the memory map (R102, R111).  No range is tagged I/O (DEDUCED, Log 17). -/
inductive Handler where
  | ram | save | rom0 | rom1 | romLinear
deriving DecidableEq, Repr, Inhabited

/-- One range of the memory map: its first and last physical address and its handler (R102). -/
structure MapRange where
  first : Nat
  last : Nat
  handler : Handler
deriving DecidableEq, Repr, Inhabited

/-- The ports of the four bank registers (R113). -/
structure BankPorts where
  lin : Word
  save : Word
  rom0 : Word
  rom1 : Word
deriving DecidableEq, Repr, Inhabited

/-! ## Decided parameters -/

/-- The parameters the spec decides, with the decided values as defaults (R10). -/
structure Cfg where
  /-- `FLAGS_FIXED_ONE` (R39) -/
  flagsFixedOne : Word := 0xF002#16
  /-- `FLAGS_FIXED_ZERO` (R39) -/
  flagsFixedZero : Word := 0x0028#16
  /-- `SHIFT_COUNT_MASK` (D7) -/
  shiftCountMask : Byte := 0x1F#8
  /-- `PUSH_SP_NEW` (D8) -/
  pushSpNew : Bool := true
  /-- `IDIV_MIN_OK` (D9) -/
  idivMinOk : Bool := true
  /-- `AAMD_USE_IMM` (D10) -/
  aamdUseImm : Bool := true
  /-- `AAA_CARRY_INTO_AH` (D11) -/
  aaaCarryIntoAh : Bool := false
  /-- `DIV_ERR_RETURN` (D12) -/
  divErrReturn : DivErrReturn := .next
  /-- `INT_SHADOW` (D13) -/
  intShadow : IntShadow := .none
  /-- `SINGLE_STEP` (D14) -/
  singleStep : Bool := true
  /-- `HALT_WAKE_IGNORES_IF` (D15) -/
  haltWakeIgnoresIf : Bool := false
  /-- `MemMap` (R111); which byte a range of another map reaches is the model's (DESIGN CHOICE, Log 32) -/
  memMap : List MapRange :=
    [⟨0x00000, 0x0FFFF, .ram⟩, ⟨0x10000, 0x1FFFF, .save⟩, ⟨0x20000, 0x2FFFF, .rom0⟩,
     ⟨0x30000, 0x3FFFF, .rom1⟩, ⟨0x40000, 0xFFFFF, .romLinear⟩]
  /-- `RAM_SIZE` (D26) -/
  ramSize : Nat := 65536
  /-- `ROM_GRANULE` (D27) -/
  romGranule : Nat := 65536
  /-- `BANK_PORTS` (D28) -/
  bankPorts : BankPorts := ⟨0xC0#16, 0xC1#16, 0xC2#16, 0xC3#16⟩
  /-- `PORT_WIDTH`, the width of a port number, at most 16 (R10, D24; DESIGN CHOICE, Log 29) -/
  portWidth : Nat := 16
  /-- `RESET_GPR` (D48) -/
  resetGpr : ResetMode := .unset
  /-- `RESET_RAM` (D48) -/
  resetRam : ResetMode := .unset
  /-- `TIMER_COUNT` (D37) -/
  timerCount : Nat := 1
  /-- `TIMER_FIRE` (D38) -/
  timerFire : TimerFire := .onBorrowFromZero
  /-- `EnvelopeStep` (D45) -/
  envelopeStep : EnvelopeStep := .standard
  /-- `DEFAULT_ROM_SIZE`: OPEN, and not observable under this map (R117, D33; DESIGN CHOICE, Log 11). -/
  defaultRomSize : Nat := 65536
deriving DecidableEq, Repr, Inhabited

/-- `FLAGS_WMASK` (R39). -/
def flagsWmask : Word := 0x0FD5#16

/-- The ranges of a memory map are non-empty, inside the 20-bit space, and in rising order without
overlap; `from` is the first address a range may start at (R102). -/
def mapOrdered (start : Nat) : List MapRange → Bool
  | [] => true
  | r :: rs => decide (start ≤ r.first) && decide (r.first ≤ r.last) && decide (r.last < 2 ^ 20) && mapOrdered (r.last + 1) rs

/-- The constraints on the decided parameters (R10, R39, R102, R112; 93_implementation_defined.md I20). -/
def Cfg.wf (c : Cfg) : Bool :=
  decide (c.flagsFixedOne &&& flagsWmask = 0#16) && decide (c.flagsFixedZero &&& flagsWmask = 0#16)
    && decide (c.flagsFixedOne &&& c.flagsFixedZero = 0#16)
    && mapOrdered 0 c.memMap
    && (List.range 17).any (fun k => c.ramSize == 2 ^ k)
    && decide (0 < c.portWidth) && decide (c.portWidth ≤ 16)
    && decide (0 < c.romGranule)
    && decide (0 < c.defaultRomSize) && decide (c.defaultRomSize % c.romGranule = 0)

/-! ## Open parameters -/

/-- A clock ratio p/q (R622). -/
structure Ratio where
  p : Nat
  q : Nat
deriving DecidableEq, Repr, Inhabited

/-- The port numbers of the interrupt controller (R530). -/
structure IcPorts where
  enable : Word
  status : Word
  ack : Word
deriving DecidableEq, Repr, Inhabited

/-- One timer unit: its interrupt source and its ports (R540, R546). -/
structure TimerUnit where
  src : Nat
  control : Word
  reloadLo : Word
  reloadHi : Word
  countLo : Word
  countHi : Word
deriving DecidableEq, Repr, Inhabited

/-- The PPU ports (R568). -/
structure PpuPorts where
  pctl : Word
  line : Word
deriving DecidableEq, Repr, Inhabited

/-- The channel kinds of the APU (R580). -/
inductive ChannelKind where
  | square | noise | pcm
deriving DecidableEq, Repr, Inhabited

/-- One APU channel: its kind and its base port (R580, R585). -/
structure ChannelUnit where
  kind : ChannelKind
  base : Word
deriving DecidableEq, Repr, Inhabited

/-- `CycleCost`: one count for every step (profile EX, R642), or the free function
`Config.cycleCost` of the instruction and what its operands can be read from (R640). -/
inductive CycleCost where
  | uniform (n : Nat)
  | byForm
deriving DecidableEq, Repr, Inhabited

/-- The parameters the spec leaves OPEN (R10). -/
structure OpenCfg where
  /-- `OPEN_BUS` (D32) -/
  openBus : Byte
  /-- `OPEN_BUS_PORT` (D24) -/
  openBusPort : Byte
  /-- the number N of `Sources` (D34) -/
  nSources : Nat
  /-- the source HBlank (R520) -/
  hblankSrc : Nat
  /-- the source VBlank (R520) -/
  vblankSrc : Nat
  /-- `Priority`, one number per source (R528) -/
  priority : List Nat
  /-- `VectorOf`, one vector per source (R531) -/
  vectorOf : List Byte
  /-- `IC_PORTS` (D35) -/
  icPorts : IcPorts
  /-- the timer units with `TIMER_PORTS` (D37) -/
  timers : List TimerUnit
  /-- `TimerClock` (D46) -/
  timerClock : Ratio
  /-- `LINE_DOTS` (D39) -/
  lineDots : Nat
  /-- `VISIBLE_DOTS` (D39) -/
  visibleDots : Nat
  /-- `VISIBLE_LINES` (D39) -/
  visibleLines : Nat
  /-- `TOTAL_LINES` (D39) -/
  totalLines : Nat
  /-- `DOTS_PER_CYCLE` (D46) -/
  dotsPerCycle : Ratio
  /-- `APU_TICKS_PER_CYCLE` (D46) -/
  apuTicksPerCycle : Ratio
  /-- `PPU_PORTS` (D42) -/
  ppuPorts : PpuPorts
  /-- the number of entries of the sprite attribute table, a part of `PpuRender` (D41; DESIGN CHOICE, Log 8) -/
  spriteCount : Nat
  /-- `SPRITES_PER_LINE` (D41) -/
  spritesPerLine : Nat
  /-- `Channels` with `APU_PORTS` (D43) -/
  channels : List ChannelUnit
  /-- `LFSR_SEED` (D43) -/
  lfsrSeed : BitVec 15
  /-- `MIX_MIN` (D44) -/
  mixMin : Int
  /-- `MIX_MAX` (D44) -/
  mixMax : Int
  /-- `CycleCost` (D4) -/
  cycleCost : CycleCost
  /-- `GAP_CYCLES` (D3) -/
  gapCycles : Nat
  /-- `INT_ENTRY_CYCLES` (D17) -/
  intEntryCycles : Nat
  /-- `HALT_QUANTUM` (D16) -/
  haltQuantum : Nat
deriving DecidableEq, Repr, Inhabited

/-- A ratio is a fraction in lowest terms (R622). -/
def Ratio.wf (r : Ratio) : Bool := decide (0 < r.q) && decide (Nat.gcd r.p r.q = 1)

/-- The ports the devices own, the bank registers among them (R131). -/
def ownedPorts (c : Cfg) (o : OpenCfg) : List Word :=
  [o.icPorts.enable, o.icPorts.status, o.icPorts.ack]
    ++ o.timers.flatMap (fun t => [t.control, t.reloadLo, t.reloadHi, t.countLo, t.countHi])
    ++ [o.ppuPorts.pctl, o.ppuPorts.line]
    ++ o.channels.flatMap (fun ch => (List.range 6).map fun k => ch.base + BitVec.ofNat 16 k)
    ++ [c.bankPorts.lin, c.bankPorts.save, c.bankPorts.rom0, c.bankPorts.rom1]

/-- The constraints on the OPEN parameters (R10, R131, R520, R528, R560, R584, R622; I20). -/
def OpenCfg.wf (c : Cfg) (o : OpenCfg) : Bool :=
  decide (o.nSources ≤ 8)
    && decide ((o.hblankSrc :: o.vblankSrc :: o.timers.map (·.src)).Nodup)
    && (o.hblankSrc :: o.vblankSrc :: o.timers.map (·.src)).all (fun k => decide (k < o.nSources))
    && decide (o.priority.length = o.nSources) && decide o.priority.Nodup
    && decide (o.vectorOf.length = o.nSources)
    && decide (o.timers.length = c.timerCount)
    && decide (0 < o.visibleDots) && decide (o.visibleDots < o.lineDots)
    && decide (0 < o.visibleLines) && decide (o.visibleLines < o.totalLines)
    && o.timerClock.wf && o.dotsPerCycle.wf && o.apuTicksPerCycle.wf
    && decide (1 ≤ o.spritesPerLine) && decide (o.lfsrSeed ≠ 0#15)
    && decide (1 ≤ o.gapCycles) && decide (1 ≤ o.intEntryCycles) && decide (1 ≤ o.haltQuantum)
    && (match o.cycleCost with | .uniform n => decide (1 ≤ n) | .byForm => true)
    && decide (ownedPorts c o).Nodup && (ownedPorts c o).all (fun p => decide (p.toNat < 2 ^ c.portWidth))

/-- Test profile EX (R642; R520, R528, R530, R531, R542, R546, R560, R568, R580, R583, R585, R622).  It fixes
no open-bus byte, sprite parameter or LFSR seed: the values here are only for tests that read none. -/
def OpenCfg.ex : OpenCfg where
  openBus := 0x90#8
  openBusPort := 0x91#8
  nSources := 3
  hblankSrc := 1
  vblankSrc := 2
  priority := [0, 1, 2]
  vectorOf := [0x08#8, 0x09#8, 0x0A#8]
  icPorts := ⟨0xB2#16, 0xB4#16, 0xB6#16⟩
  timers := [⟨0, 0xA2#16, 0xA4#16, 0xA5#16, 0xA8#16, 0xA9#16⟩]
  timerClock := ⟨1, 1⟩
  lineDots := 256
  visibleDots := 224
  visibleLines := 144
  totalLines := 159
  dotsPerCycle := ⟨1, 1⟩
  apuTicksPerCycle := ⟨1, 1⟩
  ppuPorts := ⟨0x00#16, 0x02#16⟩
  spriteCount := 128
  spritesPerLine := 32
  channels := [⟨.square, 0x80#16⟩]
  lfsrSeed := 1#15
  mixMin := 0
  mixMax := 255
  cycleCost := .uniform 1
  gapCycles := 1
  intEntryCycles := 1
  haltQuantum := 1

/-! ## Free values -/

namespace Config

/-- A free record of OPEN parameters (R10; DESIGN CHOICE, Log 3). -/
opaque openRaw : OpenCfg

/-- The OPEN parameters of the machine after reset: the free record where it meets the constraints of
R10, and profile EX where it does not, since no machine is built from such a record (I20; DESIGN CHOICE, Log 3). -/
def openCfg : OpenCfg := if openRaw.wf {} then openRaw else OpenCfg.ex

/-- The instructions that leave a flag undefined (93_implementation_defined.md I1). -/
inductive UndefOp where
  | and | or | xor | test | mul | imul | div | idiv | daa | das | aaa | aas | aam | aad
  | rol | ror | rcl | rcr | shl | shr | sar
deriving DecidableEq, Repr, Inhabited

/-- `UndefFlag(instruction, flag, inputs)` (D6): the free value of a flag that an instruction leaves
undefined.  Its inputs are the instruction and its width, the flag, the two operand values and
FLAGS before the instruction (DEDUCED, Log 6). -/
opaque undefFlag (op : UndefOp) (w : Nat) (f : Flag) (a b : Nat) (flags : Word) : Bool

/-- The value of RAM byte `i` that nothing has written, under `RESET_RAM = Unset` (D61; DEDUCED, Log 5). -/
opaque unsetRam (i : Nat) : Byte

/-- `SAVE_SIZE` of the machine after reset, a property of the cartridge (D30; DESIGN CHOICE, Log 12). -/
opaque saveSize : Nat

/-- `LfsrStep` (D43; DESIGN CHOICE, Log 9). -/
opaque lfsrStep (x : BitVec 15) : BitVec 15

/-- A replacement of `EnvelopeStep` (D45; DESIGN CHOICE, Log 9); `up` is the direction. -/
opaque envelopeStep (vol : BitVec 4) (up : Bool) : BitVec 4

/-! `PpuRender` (D41; DESIGN CHOICE, Log 8): total functions of the PPU memories (the cells of internal RAM) and of
their arguments. -/

/-- `SpriteCovers(i, y)` (R566). -/
opaque spriteCovers (ram : List Host.Cell) (i y : Nat) : Bool

/-- `BgIndex(y, x)` (R566). -/
opaque bgIndex (ram : List Host.Cell) (y x : Nat) : Nat

/-- `SprIndex(i, y, x)` (R566). -/
opaque sprIndex (ram : List Host.Cell) (i y x : Nat) : Nat

/-- `SprOver(i)` (R566). -/
opaque sprOver (ram : List Host.Cell) (i : Nat) : Bool

/-- `SprColor(p)` (R566). -/
opaque sprColor (ram : List Host.Cell) (p : Nat) : Nat

/-- `BgColor(b)` (R566). -/
opaque bgColor (ram : List Host.Cell) (b : Nat) : Nat

end Config

end Sys2Proof
end

