-- ==== Sys2Proof/Machine/State.lean ====
section
/-! DEFINITION. The state of the machine (10_state.md, 20_memory.md, 60_exceptions.md,
70_reset_and_hazards.md R620-R622) and its value at reset (10_state.md R70-R82).  Plain data; the
operations on it are in Machine/Ops.lean, Machine/Flags.lean and Machine/Devices.lean. -/

namespace Sys2Proof.Machine

/-! ## Registers -/

/-- One value per general register (R31). -/
structure RegTable (α : Type) where
  ax : α
  cx : α
  dx : α
  bx : α
  sp : α
  bp : α
  si : α
  di : α
deriving DecidableEq, Repr, Inhabited

/-- The segment registers (R34). -/
structure Segs where
  es : Word
  cs : Word
  ss : Word
  ds : Word
deriving DecidableEq, Repr, Inhabited

/-- The unset marks of one register, true while nothing has written it (R70).  AX, CX, DX and BX have
one mark per byte half; SP, BP, SI and DI have one mark, kept equal in both. -/
structure Half where
  lo : Bool
  hi : Bool
deriving DecidableEq, Repr, Inhabited

/-! ## Records -/

/-- A location whose reset value is Unset (R53): a byte half of AX, CX, DX or BX, one of SP, BP, SI
and DI, or a RAM byte. -/
inductive UnsetLoc where
  | half (r : Reg8)
  | word (r : Reg16)
  | ram (i : Nat)
deriving DecidableEq, Repr

/-- An entry of the sticky fault record (R53). -/
inductive FaultRecord where
  | readUnset (loc : UnsetLoc)
deriving DecidableEq, Repr

/-- An entry of the diagnostic log (R52): the bytes read by the gap step, prefixes first (R186). -/
inductive DiagEvent where
  | decodeGap (cs ip : Word) (bytes : List Byte)
deriving DecidableEq, Repr

/-- The repeat prefixes: F2 and F3 (R361). -/
inductive RepKind where
  | repne | rep
deriving DecidableEq, Repr, Inhabited

/-- One trace record (R192, R594): the instruction pointer, the instruction with its prefixes, and
the registers and flags after it. -/
structure TraceRec where
  cs : Word
  ip : Word
  segOvr : Option SReg
  rep : Option RepKind
  lock : Bool
  instr : Instr
  regs : RegTable Word
  segs : Segs
  ipAfter : Word
  flags : Word
deriving DecidableEq, Repr

/-- The model's own decode state inside one step (R54; DESIGN CHOICE, Log 14): the prefixes read so far, and whether
the instruction has performed an interrupt entry (R470).  It is `{}` between steps. -/
structure StepCtx where
  segOvr : Option SReg := none
  rep : Option RepKind := none
  lock : Bool := false
  pfxLen : Nat := 0
  entered : Bool := false
deriving DecidableEq, Repr, Inhabited

/-! ## Devices -/

/-- The interrupt controller (R521): bit i is source i; bits at or above N are 0. -/
structure Ic where
  enable : BitVec 8 := 0#8
  pending : BitVec 8 := 0#8
deriving DecidableEq, Repr, Inhabited

/-- One timer unit (R540). -/
structure Timer where
  count : Word := 0#16
  reload : Word := 0#16
  en : Bool := false
  auto : Bool := false
deriving DecidableEq, Repr, Inhabited

/-- The PPU modes (R561). -/
inductive PpuMode where
  | visible | hblank | vblank
deriving DecidableEq, Repr, Inhabited

/-- The PPU sequencer and its buffers (R561).  A row is the list of its pixels, of the parameter type
`Color` (a number; DESIGN CHOICE, Log 8).  `rowBuf` is the row composed last (R58; DESIGN CHOICE, Log 19). -/
structure Ppu where
  line : Nat := 0
  dot : Nat := 0
  mode : PpuMode := .visible
  pctl : Byte := 0#8
  vblankEdge : Bool := false
  fbWork : List (List Nat) := []
  fbDone : Option (List (List Nat)) := none
  rowBuf : List Nat := []
deriving DecidableEq, Repr, Inhabited

/-- One APU channel (R580).  `envReg` holds envrate in bits 5:0 and envdir in bits 7:6, `ctrl` holds
chen in bit 0 and duty in bits 3:1 (R584; DEDUCED, Log 18). -/
structure Channel where
  div : Word := 0#16
  period : Word := 0#16
  phase : BitVec 15 := 0#15
  vol : BitVec 4 := 0#4
  env : Byte := 0#8
  envReg : Byte := 0#8
  ctrl : Byte := 0#8
  data : Byte := 0#8
deriving DecidableEq, Repr, Inhabited

/-- The mapper's bank registers (R113). -/
structure Banks where
  lin : Byte := 0xFF#8
  save : Byte := 0xFF#8
  rom0 : Byte := 0xFF#8
  rom1 : Byte := 0xFF#8
deriving DecidableEq, Repr, Inhabited

/-! ## Memories -/

/-- A memory: its cells in rising order of address, none equal to what an unlisted cell holds
(`Memory.wf` in Machine/Ops.lean). -/
abbrev Memory := List Host.Cell

/-- The cartridge ROM image (R114, R115): its length, and the cells that are not 0. -/
structure Rom where
  len : Nat
  cells : Memory := []
deriving DecidableEq, Repr, Inhabited

/-- The cartridge save memory (R116): its size, and the cells that are not 0. -/
structure SaveMem where
  size : Nat
  cells : Memory := []
deriving DecidableEq, Repr, Inhabited

/-- The remainders of the clock conversions (R622). -/
structure Rem where
  ppu : Nat := 0
  apu : Nat := 0
  timer : Nat := 0
deriving DecidableEq, Repr, Inhabited

/-- The host's modes (R594); `normal` is the absent mode. -/
inductive HostMode where
  | normal | mute | trace
deriving DecidableEq, Repr, Inhabited

/-! ## Outcomes that are not a next state -/

/-- Why the machine stops with a fault. -/
inductive Fault where
  /-- Raised by the step when 65536 consecutive prefix bytes have been read: the step never completes,
  and the state is `Hung` (R152; DEDUCED, Log 15).  Safe: the hardware goes nowhere either. -/
  | hung
deriving DecidableEq, Repr

/-- Why an instruction has no outcome. -/
inductive Refusal where
  /-- Raised by an arm of `exec` that has no meaning yet.  Safe: nothing is claimed. -/
  | notModelled (mnemonic : String)
deriving DecidableEq, Repr

/-! ## The state -/

/-- The state of the machine: the CPU (R30-R54), the devices (R56-R60), the memories (R61), the
scheduler (R622), what the host sees (R590), and the parameters of the run (R10). -/
structure State where
  /-- the general registers (R31) -/
  regs : RegTable Word
  /-- the unset marks of the general registers (R70) -/
  unset : RegTable Half
  /-- the segment registers (R34) -/
  segs : Segs
  /-- the instruction pointer (R36) -/
  ip : Word
  /-- the FLAGS word (R38) -/
  flags : Word
  /-- (R50) -/
  halted : Bool
  /-- (R51): false is 0, true is 1 -/
  shadow : Bool
  /-- the diagnostic log (R52), oldest first -/
  diag : List DiagEvent
  /-- the sticky fault record (R53), oldest first -/
  faults : List FaultRecord
  /-- the interrupt controller (R56) -/
  ic : Ic
  /-- the timer units (R57) -/
  timers : List Timer
  /-- the PPU (R58) -/
  ppu : Ppu
  /-- the APU channels (R59) -/
  apu : List Channel
  /-- the mapper (R60) -/
  banks : Banks
  /-- internal RAM (R112), the PPU memories in it (R571) -/
  ram : Memory
  /-- the cartridge ROM (R114) -/
  rom : Rom
  /-- the cartridge save memory (R116) -/
  save : SaveMem
  /-- the clock remainders (R622) -/
  rem : Rem
  /-- cycles since reset (R620); it starts at 0 (DESIGN CHOICE, Log 31) -/
  elapsed : Nat
  /-- the host's mode (R594) -/
  mode : HostMode
  /-- the host sample buffer (R583), oldest first -/
  samples : List Int
  /-- the sources raised since the last frame report began, bit i is source i (R590; DESIGN CHOICE, Log 30) -/
  raised : BitVec 8
  /-- the trace sink (R594), oldest first -/
  trace : List TraceRec
  /-- the host's optional input ports (R595; DESIGN CHOICE, Log 21) -/
  input : List (Word × Byte)
  /-- the decided parameters (R10; DESIGN CHOICE, Log 2) -/
  cfg : Cfg
  /-- the OPEN parameters (R10; DESIGN CHOICE, Log 3) -/
  ext : OpenCfg
  /-- the model's decode state inside a step (DESIGN CHOICE, Log 14) -/
  cur : StepCtx
deriving DecidableEq, Repr, Inhabited

/-- The same value for every general register. -/
def RegTable.all {α : Type} (x : α) : RegTable α := ⟨x, x, x, x, x, x, x, x⟩

/-- The state after reset (R70-R82, R600) of a machine with the given parameters, ROM, save memory, mode
and input ports.  A general register holds 0 and is marked unset under `RESET_GPR = Unset` (DESIGN CHOICE, Log 4).  R82, R600
and R620 give no value for the host's records: the model starts `elapsed` and `raised` at 0 and `trace` empty (DESIGN CHOICE,
Log 31); the sample buffer is empty by R587. -/
def State.resetWith (c : Cfg) (o : OpenCfg) (rom : Rom) (save : SaveMem) (mode : HostMode)
    (input : List (Word × Byte)) : State where
  regs := RegTable.all 0x0000#16
  unset := RegTable.all ⟨c.resetGpr == .unset, c.resetGpr == .unset⟩
  segs := { es := 0x0000#16, cs := 0xFFFF#16, ss := 0x0000#16, ds := 0x0000#16 }
  ip := 0x0000#16
  flags := c.flagsFixedOne
  halted := false
  shadow := false
  diag := []
  faults := []
  ic := {}
  timers := List.replicate c.timerCount {}
  ppu := {}
  apu := o.channels.map fun _ => {}
  banks := {}
  ram := []
  rom := rom
  save := save
  rem := {}
  elapsed := 0
  mode := mode
  samples := []
  raised := 0#8
  trace := []
  input := input
  cfg := c
  ext := o
  cur := {}

/-- The machine right after reset (R82): the decided parameters, the free OPEN parameters (DESIGN CHOICE, Log 3), the
all-zero ROM (R117; DESIGN CHOICE, Log 11), a save memory of free size (DESIGN CHOICE, Log 12), no host mode and no input port. -/
def State.reset : State :=
  State.resetWith {} Config.openCfg { len := 65536 } { size := Config.saveSize } .normal []

end Sys2Proof.Machine
end

