-- ==== Sys2Proof/Machine/Flags.lean ====
section
/-! DEFINITION. The FLAGS word and every flag computation of the spec (10_state.md R38-R48, 00_scope.md
R16, 41_arithmetic.md, 42_logic_shift.md, 44_control_transfer.md R403), as functions of values.  The
width `w` is the operand width, 8 or 16.  Sums and differences are exact integers (R260). -/

namespace Sys2Proof.Machine

/-! ## The FLAGS word -/

/-- The position of a flag in FLAGS (R38). -/
def flagBit : Flag → Nat
  | .cf => 0 | .pf => 2 | .af => 4 | .zf => 6 | .sf => 7 | .tf => 8 | .if_ => 9 | .df => 10 | .of => 11

/-- The flag of a FLAGS word. -/
def flagGet (fl : Word) (f : Flag) : Bool := fl.getLsbD (flagBit f)

/-- A FLAGS word with one flag written (R13). -/
def flagPut (fl : Word) (f : Flag) (b : Bool) : Word :=
  if b then fl ||| (1#16 <<< flagBit f) else fl &&& ~~~(1#16 <<< flagBit f)

/-- What a write of a whole word to FLAGS stores (`WriteFlags`, R39). -/
def writeFlagsWord (c : Cfg) (v : Word) : Word := (v &&& flagsWmask) ||| c.flagsFixedOne

/-- 1 when a byte has an even number of 1 bits (R16). -/
def parity (b : Byte) : Bool :=
  !(b.getLsbD 0 ^^ b.getLsbD 1 ^^ b.getLsbD 2 ^^ b.getLsbD 3 ^^ b.getLsbD 4 ^^ b.getLsbD 5 ^^ b.getLsbD 6 ^^ b.getLsbD 7)

/-- `SetSZP_w` (R16). -/
def setSZP {w : Nat} (fl : Word) (res : BitVec w) : Word :=
  flagPut (flagPut (flagPut fl .sf res.msb) .zf (decide (res = 0#w))) .pf (parity (res.setWidth 8))

/-- Writes a draw to each of the listed flags (R15, D6; DEDUCED, Log 6); `fl0` is FLAGS before the instruction. -/
def drawFlags (op : Config.UndefOp) (w a b : Nat) (fl0 : Word) : List Flag → Word → Word
  | [], fl => fl
  | f :: fs, fl => drawFlags op w a b fl0 fs (flagPut fl f (Config.undefFlag op w f a b fl0))

/-! ## Addition and subtraction (R260) -/

/-- The result of `AddW`. -/
def addRes {w : Nat} (a b : BitVec w) (c : Bool) : BitVec w := BitVec.ofNat w (a.toNat + b.toNat + c.toNat)

/-- The flags of `AddW`. -/
def addFlags {w : Nat} (a b : BitVec w) (c : Bool) (fl : Word) : Word :=
  let res := addRes a b c
  let fl := flagPut fl .cf (decide (2 ^ w ≤ a.toNat + b.toNat + c.toNat))
  let fl := flagPut fl .af ((a ^^^ b ^^^ res).getLsbD 4)
  let fl := flagPut fl .of ((a ^^^ res) &&& (b ^^^ res)).msb
  setSZP fl res

/-- The exact difference of `SubW`. -/
def subInt {w : Nat} (a b : BitVec w) (c : Bool) : Int := (a.toNat : Int) - (b.toNat : Int) - (c.toNat : Int)

/-- The result of `SubW`. -/
def subRes {w : Nat} (a b : BitVec w) (c : Bool) : BitVec w := BitVec.ofInt w (subInt a b c)

/-- The flags of `SubW`. -/
def subFlags {w : Nat} (a b : BitVec w) (c : Bool) (fl : Word) : Word :=
  let res := subRes a b c
  let fl := flagPut fl .cf (decide (subInt a b c < 0))
  let fl := flagPut fl .af ((a ^^^ b ^^^ res).getLsbD 4)
  let fl := flagPut fl .of ((a ^^^ b) &&& (a ^^^ res)).msb
  setSZP fl res

/-! ## Logic (R320) -/

/-- `LogicFlags_w`; `a` and `b` are the operands, for the draw. -/
def logicFlags {w : Nat} (op : Config.UndefOp) (a b res : BitVec w) (fl : Word) : Word :=
  drawFlags op w a.toNat b.toNat fl [.af] (setSZP (flagPut (flagPut fl .cf false) .of false) res)

/-! ## The eight ALU operations (R156) -/

/-- The ALU operations in their encoding order. -/
inductive AluOp where
  | add | or | adc | sbb | and | sub | xor | cmp
deriving DecidableEq, Repr, Inhabited

/-- The result of an ALU operation: destination `a`, source `b` (R261-R265, R321-R323). -/
def aluRes {w : Nat} (op : AluOp) (a b : BitVec w) (fl : Word) : BitVec w :=
  match op with
  | .add => addRes a b false
  | .or => a ||| b
  | .adc => addRes a b (flagGet fl .cf)
  | .sbb => subRes a b (flagGet fl .cf)
  | .and => a &&& b
  | .sub => subRes a b false
  | .xor => a ^^^ b
  | .cmp => subRes a b false

/-- The flags of an ALU operation. -/
def aluFlags {w : Nat} (op : AluOp) (a b : BitVec w) (fl : Word) : Word :=
  match op with
  | .add => addFlags a b false fl
  | .or => logicFlags .or a b (a ||| b) fl
  | .adc => addFlags a b (flagGet fl .cf) fl
  | .sbb => subFlags a b (flagGet fl .cf) fl
  | .and => logicFlags .and a b (a &&& b) fl
  | .sub => subFlags a b false fl
  | .xor => logicFlags .xor a b (a ^^^ b) fl
  | .cmp => subFlags a b false fl

/-! ## Increment and decrement (R266, R268) -/

/-- The flags of INC: those of `AddW(a, 1, 0)` with CF kept. -/
def incFlags {w : Nat} (a : BitVec w) (fl : Word) : Word := flagPut (addFlags a 1#w false fl) .cf (flagGet fl .cf)

/-- The flags of DEC: those of `SubW(a, 1, 0)` with CF kept. -/
def decFlags {w : Nat} (a : BitVec w) (fl : Word) : Word := flagPut (subFlags a 1#w false fl) .cf (flagGet fl .cf)

/-! ## Multiply and divide -/

/-- The flags of MUL and IMUL: CF and OF say whether the upper half is significant; SF, ZF, AF and
PF are draws (R271-R273). -/
def mulFlags (op : Config.UndefOp) (w a b : Nat) (big : Bool) (fl : Word) : Word :=
  drawFlags op w a b fl [.sf, .zf, .af, .pf] (flagPut (flagPut fl .cf big) .of big)

/-- The flags of DIV and IDIV: six draws (R274, R275). -/
def divFlags (op : Config.UndefOp) (w a b : Nat) (fl : Word) : Word :=
  drawFlags op w a b fl [.of, .sf, .zf, .af, .pf, .cf] fl

/-- A signed product does not fit width `w` (R272, R273). -/
def signedBig (w : Nat) (p : Int) : Bool := decide (p < -(2 ^ (w - 1) : Int)) || decide ((2 ^ (w - 1) : Int) - 1 < p)

/-- The unsigned quotient and remainder, or `none` for a divide error (R274). -/
def divU (w n d : Nat) : Option (BitVec w × BitVec w) :=
  if d = 0 then none
  else if 2 ^ w - 1 < n / d then none
  else some (BitVec.ofNat w (n / d), BitVec.ofNat w (n % d))

/-- The signed quotient, rounded toward zero, and remainder, or `none` for a divide error (R275). -/
def divS (minOk : Bool) (w : Nat) (n d : Int) : Option (BitVec w × BitVec w) :=
  if d = 0 then none
  else
    let q := n.tdiv d
    let qmin : Int := if minOk then -(2 ^ (w - 1)) else -(2 ^ (w - 1)) + 1
    if q < qmin ∨ (2 ^ (w - 1) : Int) - 1 < q then none
    else some (BitVec.ofInt w q, BitVec.ofInt w (n - q * d))

/-! ## Decimal adjust (R276-R281) -/

/-- What DAA leaves in AL, CF and AF (R276). -/
def daaRes (al : Byte) (cf af : Bool) : Byte × Bool × Bool :=
  let adj := decide (9 < (al &&& 0x0F#8).toNat) || af
  let al1 := if adj then al + 6#8 else al
  let high := decide (0x99 < al.toNat) || cf
  (if high then al1 + 0x60#8 else al1, high, adj)

/-- What DAS leaves in AL, CF and AF (R277). -/
def dasRes (al : Byte) (cf af : Bool) : Byte × Bool × Bool :=
  let adj := decide (9 < (al &&& 0x0F#8).toNat) || af
  let al1 := if adj then al - 6#8 else al
  let cf1 := adj && (cf || decide (al.toNat < 6))
  let high := decide (0x99 < al.toNat) || cf
  (if high then al1 - 0x60#8 else al1, if high then true else cf1, adj)

/-- The flags of DAA and DAS (R276, R277). -/
def decimalFlags (op : Config.UndefOp) (old : Byte) (r : Byte × Bool × Bool) (fl : Word) : Word :=
  drawFlags op 8 old.toNat 0 fl [.of] (setSZP (flagPut (flagPut fl .af r.2.2) .cf r.2.1) r.1)

/-- AAA and AAS adjust (R278, R279). -/
def asciiAdjusts (al : Byte) (af : Bool) : Bool := decide (9 < (al &&& 0x0F#8).toNat) || af

/-- What AAA leaves in AX (R278). -/
def aaaRes (carryIntoAh : Bool) (ax : Word) (af : Bool) : Word :=
  let al : Byte := ax.extractLsb' 0 8
  let ah : Byte := ax.extractLsb' 8 8
  let x : Word := if asciiAdjusts al af then (if carryIntoAh then ax + 0x0106#16 else (ah + 1#8) ++ (al + 6#8)) else ax
  x &&& 0xFF0F#16

/-- What AAS leaves in AX (R279). -/
def aasRes (carryIntoAh : Bool) (ax : Word) (af : Bool) : Word :=
  let al : Byte := ax.extractLsb' 0 8
  let ah : Byte := ax.extractLsb' 8 8
  let x : Word :=
    if asciiAdjusts al af then (if carryIntoAh then (ax - 6#16) - 0x0100#16 else (ah - 1#8) ++ (al - 6#8)) else ax
  x &&& 0xFF0F#16

/-- The flags of AAA and AAS (R278, R279). -/
def asciiFlags (op : Config.UndefOp) (ax : Word) (adj : Bool) (fl : Word) : Word :=
  drawFlags op 8 ax.toNat 0 fl [.of, .sf, .zf, .pf] (flagPut (flagPut fl .af adj) .cf adj)

/-- The flags of AAM and AAD: SF, ZF and PF of the new AL; OF, AF and CF are draws (R280, R281). -/
def aamdFlags (op : Config.UndefOp) (ax : Word) (base al : Byte) (fl : Word) : Word :=
  drawFlags op 8 ax.toNat base.toNat fl [.of, .af, .cf] (setSZP fl al)

/-! ## Shifts and rotates (R326-R333) -/

/-- The group-2 operations. -/
inductive ShiftOp where
  | rol | ror | rcl | rcr | shl | shr | sar
deriving DecidableEq, Repr, Inhabited

/-- The name under which a shift draws its undefined flags. -/
def shiftUndef : ShiftOp → Config.UndefOp
  | .rol => .rol | .ror => .ror | .rcl => .rcl | .rcr => .rcr | .shl => .shl | .shr => .shr | .sar => .sar

/-- A bit as a number of width `w`. -/
def bitVal (w : Nat) (b : Bool) : BitVec w := if b then 1#w else 0#w

/-- One single-bit step on the operand and CF. -/
def shiftStep {w : Nat} (op : ShiftOp) (x : BitVec w) (cf : Bool) : BitVec w × Bool :=
  match op with
  | .rol => ((x <<< 1) ||| bitVal w x.msb, x.msb)
  | .ror => ((x >>> 1) ||| (bitVal w (x.getLsbD 0) <<< (w - 1)), x.getLsbD 0)
  | .rcl => ((x <<< 1) ||| bitVal w cf, x.msb)
  | .rcr => ((x >>> 1) ||| (bitVal w cf <<< (w - 1)), x.getLsbD 0)
  | .shl => (x <<< 1, x.msb)
  | .shr => (x >>> 1, x.getLsbD 0)
  | .sar => ((x >>> 1) ||| (bitVal w x.msb <<< (w - 1)), x.getLsbD 0)

/-- `n` single-bit steps in sequence (R326). -/
def shiftSteps {w : Nat} (op : ShiftOp) : Nat → BitVec w × Bool → BitVec w × Bool
  | 0, p => p
  | n + 1, p => shiftSteps op n (shiftStep op p.1 p.2)

/-- OF after a single-bit shift: `x0` the operand, `x` the result, `cf` the new CF. -/
def shiftOf {w : Nat} (op : ShiftOp) (x0 x : BitVec w) (cf : Bool) : Bool :=
  match op with
  | .rol | .rcl | .shl => x.msb ^^ cf
  | .ror | .rcr => x.getLsbD (w - 1) ^^ x.getLsbD (w - 2)
  | .shr => x0.msb
  | .sar => false

/-- A shift (and not a rotate) also writes SF, ZF, PF and leaves AF undefined. -/
def shiftSetsSZP : ShiftOp → Bool
  | .shl | .shr | .sar => true
  | .rol | .ror | .rcl | .rcr => false

/-- The value a shift by `n` writes. -/
def shiftRes {w : Nat} (op : ShiftOp) (x : BitVec w) (n : Nat) (fl : Word) : BitVec w :=
  (shiftSteps op n (x, flagGet fl .cf)).1

/-- The flags of a shift by `n ≥ 1`. -/
def shiftFlags {w : Nat} (op : ShiftOp) (x : BitVec w) (n : Nat) (fl : Word) : Word :=
  let p := shiftSteps op n (x, flagGet fl .cf)
  let fl1 := flagPut fl .cf p.2
  let fl2 :=
    if n = 1 then flagPut fl1 .of (shiftOf op x p.1 p.2)
    else drawFlags (shiftUndef op) w x.toNat n fl [.of] fl1
  if shiftSetsSZP op then drawFlags (shiftUndef op) w x.toNat n fl [.af] (setSZP fl2 p.1) else fl2

/-! ## Conditions (R403) -/

/-- The sixteen conditions, in the order of their code. -/
inductive Cond where
  | o | no | b | nb | z | nz | be | a | s | ns | p | np | l | ge | le | g
deriving DecidableEq, Repr, Inhabited

/-- When a condition holds. -/
def condHolds (c : Cond) (fl : Word) : Bool :=
  match c with
  | .o => flagGet fl .of
  | .no => !flagGet fl .of
  | .b => flagGet fl .cf
  | .nb => !flagGet fl .cf
  | .z => flagGet fl .zf
  | .nz => !flagGet fl .zf
  | .be => flagGet fl .cf || flagGet fl .zf
  | .a => !flagGet fl .cf && !flagGet fl .zf
  | .s => flagGet fl .sf
  | .ns => !flagGet fl .sf
  | .p => flagGet fl .pf
  | .np => !flagGet fl .pf
  | .l => flagGet fl .sf != flagGet fl .of
  | .ge => flagGet fl .sf == flagGet fl .of
  | .le => flagGet fl .zf || (flagGet fl .sf != flagGet fl .of)
  | .g => !flagGet fl .zf && (flagGet fl .sf == flagGet fl .of)

end Sys2Proof.Machine
end

