-- ==== Sys2Proof/Machine/Ops.lean ====
section
/-! DEFINITION. The named operations on the state: registers (10_state.md), memory and the bus
(20_memory.md R100-R124), the stack (40_data_transfer.md R206, R207), interrupt entry and its return
(60_exceptions.md R490, R491), and the advance of IP (10_state.md R36).

Reading a value is a pure function of the state.  Where the value may be unset, its read also records
an entry of the fault record (R53), and the operations that read on behalf of an instruction do that with
`State.record`, which changes nothing else; the order of the entries is that of the reads (DESIGN CHOICE, Log 22). -/

namespace Sys2Proof.Machine

/-! ## Register tables -/

/-- The entry of a register. -/
def RegTable.get {α : Type} (t : RegTable α) : Reg16 → α
  | .ax => t.ax | .cx => t.cx | .dx => t.dx | .bx => t.bx | .sp => t.sp | .bp => t.bp | .si => t.si | .di => t.di

/-- The table with one entry written. -/
def RegTable.set {α : Type} (t : RegTable α) (r : Reg16) (v : α) : RegTable α :=
  match r with
  | .ax => { t with ax := v } | .cx => { t with cx := v } | .dx => { t with dx := v } | .bx => { t with bx := v }
  | .sp => { t with sp := v } | .bp => { t with bp := v } | .si => { t with si := v } | .di => { t with di := v }

/-- The 16-bit register that contains an 8-bit register (R32). -/
def Reg8.parent : Reg8 → Reg16
  | .al | .ah => .ax
  | .cl | .ch => .cx
  | .dl | .dh => .dx
  | .bl | .bh => .bx

/-- Whether an 8-bit register is the high half (R32). -/
def Reg8.isHigh : Reg8 → Bool
  | .ah | .ch | .dh | .bh => true
  | .al | .cl | .dl | .bl => false

/-- The byte halves of AX, CX, DX and BX; the others have none (R32). -/
def Reg16.halves : Reg16 → Option (Reg8 × Reg8)
  | .ax => some (.al, .ah) | .cx => some (.cl, .ch) | .dx => some (.dl, .dh) | .bx => some (.bl, .bh)
  | .sp | .bp | .si | .di => none

/-- The low byte of a word. -/
def loByte (v : Word) : Byte := v.extractLsb' 0 8

/-- The high byte of a word. -/
def hiByte (v : Word) : Byte := v.extractLsb' 8 8

/-- Sign extension of a byte to a word (R12). -/
def sextByte (b : Byte) : Word := b.signExtend 16

/-- Zero extension of a byte to a word (R12). -/
def zextByte (b : Byte) : Word := b.setWidth 16

/-! ## The fault record (R53) -/

/-- Appends entries to the fault record. -/
def State.record (s : State) (l : List FaultRecord) : State := { s with faults := s.faults ++ l }

/-- The entries that a read of an 8-bit register records (R70). -/
def State.unset8 (s : State) (r : Reg8) : List FaultRecord :=
  let h := s.unset.get (Reg8.parent r)
  if (if Reg8.isHigh r then h.hi else h.lo) then [.readUnset (.half r)] else []

/-- The entries that a read of a 16-bit register records: one per unset half, low first, or one for
the whole of SP, BP, SI or DI (R70). -/
def State.unset16 (s : State) (r : Reg16) : List FaultRecord :=
  match Reg16.halves r with
  | some (lo, hi) => s.unset8 lo ++ s.unset8 hi
  | none => if (s.unset.get r).lo then [.readUnset (.word r)] else []

/-! ## Registers -/

/-- The value of a 16-bit register (R31). -/
def State.reg16 (s : State) (r : Reg16) : Word := s.regs.get r

/-- The value of an 8-bit register (R32). -/
def State.reg8 (s : State) (r : Reg8) : Byte :=
  if Reg8.isHigh r then hiByte (s.reg16 (Reg8.parent r)) else loByte (s.reg16 (Reg8.parent r))

/-- Writes a 16-bit register; both halves are set then (R32, R70). -/
def State.setReg16 (s : State) (r : Reg16) (v : Word) : State :=
  { s with regs := s.regs.set r v, unset := s.unset.set r ⟨false, false⟩ }

/-- A word with one half replaced (R32). -/
def putHalf (high : Bool) (w : Word) (b : Byte) : Word := if high then b ++ loByte w else hiByte w ++ b

/-- The unset marks with one half cleared (R70). -/
def clearHalf (high : Bool) (h : Half) : Half := if high then { h with hi := false } else { h with lo := false }

/-- Writes an 8-bit register: only its half changes, and only its mark is cleared (R32, R70). -/
def State.setReg8 (s : State) (r : Reg8) (v : Byte) : State :=
  let p := Reg8.parent r
  { s with
    regs := s.regs.set p (putHalf (Reg8.isHigh r) (s.regs.get p) v)
    unset := s.unset.set p (clearHalf (Reg8.isHigh r) (s.unset.get p)) }

/-- The state after reading a 16-bit register. -/
def State.note16 (s : State) (r : Reg16) : State := s.record (s.unset16 r)

/-- The state after reading an 8-bit register. -/
def State.note8 (s : State) (r : Reg8) : State := s.record (s.unset8 r)

/-- The value of a segment register (R34). -/
def State.sreg (s : State) : SReg → Word
  | .es => s.segs.es | .cs => s.segs.cs | .ss => s.segs.ss | .ds => s.segs.ds

/-- Writes a segment register (R35). -/
def State.setSReg (s : State) (r : SReg) (v : Word) : State :=
  match r with
  | .es => { s with segs := { s.segs with es := v } }
  | .cs => { s with segs := { s.segs with cs := v } }
  | .ss => { s with segs := { s.segs with ss := v } }
  | .ds => { s with segs := { s.segs with ds := v } }

/-- Writes FLAGS as computed by an operation on single flags. -/
def State.setFlags (s : State) (fl : Word) : State := { s with flags := fl }

/-- Writes one flag. -/
def State.setFlag (s : State) (f : Flag) (b : Bool) : State := s.setFlags (flagPut s.flags f b)

/-- Reads one flag. -/
def State.flag (s : State) (f : Flag) : Bool := flagGet s.flags f

/-- `WriteFlags(v)` (R39). -/
def State.writeFlags (s : State) (v : Word) : State := s.setFlags (writeFlagsWord s.cfg v)

/-- Writes IP. -/
def State.setIp (s : State) (v : Word) : State := { s with ip := v }

/-- Writes `halted` (R50). -/
def State.setHalted (s : State) (b : Bool) : State := { s with halted := b }

/-- Sets `shadow` to 1 where the machine has an interrupt shadow (R51, D13). -/
def State.setShadow (s : State) : State := if s.cfg.intShadow = .none then s else { s with shadow := true }

/-! ## Memory: lists of cells -/

/-- The byte of a cell, where the memory lists it. -/
def Memory.find? : Memory → Nat → Option Byte
  | [], _ => none
  | c :: m, a => if c.1 = a then some c.2 else Memory.find? m a

/-- Lists a cell, in its place by address. -/
def Memory.set : Memory → Nat → Byte → Memory
  | [], a, b => [(a, b)]
  | c :: m, a, b => if a < c.1 then (a, b) :: c :: m else if a = c.1 then (a, b) :: m else c :: Memory.set m a b

/-- Unlists a cell. -/
def Memory.erase (m : Memory) (a : Nat) : Memory := m.filter fun c => c.1 != a

/-- Writes a byte: a byte equal to what an unlisted cell holds is unlisted (`unl` is that byte, if it
has one). -/
def Memory.put (unl : Option Byte) (m : Memory) (a : Nat) (b : Byte) : Memory :=
  if unl = some b then Memory.erase m a else Memory.set m a b

/-- The addresses rise strictly and start at or after `lo`. -/
def Memory.rises (lo : Nat) : Memory → Bool
  | [] => true
  | c :: m => decide (lo ≤ c.1) && Memory.rises (c.1 + 1) m

/-- The canonical form: the addresses rise strictly, are below `size`, and no cell holds what an
unlisted cell holds. -/
def Memory.wf (unl : Option Byte) (size : Nat) (m : Memory) : Bool :=
  Memory.rises 0 m && m.all (fun c => decide (c.1 < size) && decide (unl ≠ some c.2))

/-! ## The bus -/

/-- What an unlisted RAM byte holds: 0 under `RESET_RAM = Zero`; under `Unset` it holds no byte (R80). -/
def ramUnlisted (c : Cfg) : Option Byte :=
  match c.resetRam with
  | .zero => some 0#8
  | .unset => none

/-- The storage byte that a physical address names (R112, R114-R116, R121, R124). -/
inductive Place where
  | ram (i : Nat)
  | save (i : Nat)
  | rom (o : Nat)
  | openBus
deriving DecidableEq, Repr

/-- The physical address of a logical address (R101). -/
def phys (sg off : Word) : Phys := (sg.setWidth 20 <<< 4) + off.setWidth 20

/-- The handler of a physical address; `none` is unmapped (R102, R111). -/
def handlerOf (m : List MapRange) (a : Nat) : Option Handler :=
  match m with
  | [] => none
  | r :: rs => if r.first ≤ a ∧ a ≤ r.last then some r.handler else handlerOf rs a

/-- The ROM length rounded up to the granule (R114). -/
def romRounded (len granule : Nat) : Nat := (len + granule - 1) / granule * granule

/-- The ROM byte of an unreduced ROM offset, or open bus past the image (R114, R115). -/
def State.romPlace (s : State) (raw : Nat) : Place :=
  let o := raw % romRounded s.rom.len s.cfg.romGranule
  if o < s.rom.len then .rom o else .openBus

/-- The storage byte that a physical address names now: R112, R114 and R116 on the ranges of the default map.  Those rules
give no formula for a range of another `MemMap` (R111); there the model applies each handler's formula to whatever addresses
the handler's range has (DESIGN CHOICE, Log 32; unsafe for such a map only). -/
def State.locate (s : State) (a : Phys) : Place :=
  match handlerOf s.cfg.memMap a.toNat with
  | some .ram => .ram (a.toNat % s.cfg.ramSize)
  | some .save =>
    if s.save.size = 0 then .openBus else .save ((s.banks.save.toNat * 2 ^ 16 + a.toNat % 2 ^ 16) % s.save.size)
  | some .rom0 => s.romPlace (s.banks.rom0.toNat * 2 ^ 16 + a.toNat % 2 ^ 16)
  | some .rom1 => s.romPlace (s.banks.rom1.toNat * 2 ^ 16 + a.toNat % 2 ^ 16)
  | some .romLinear => s.romPlace (s.banks.lin.toNat * 2 ^ 20 + a.toNat)
  | none => .openBus

/-- The byte an unlisted RAM cell reads as: its reset value, or a draw where it is unset (R53, R80;
DEDUCED, Log 5). -/
def ramDefault (c : Cfg) (i : Nat) : Byte := (ramUnlisted c).getD (Config.unsetRam i)

/-- The byte that a storage byte holds; a cell of ROM or save memory that is not listed holds 0. -/
def State.readPlace (s : State) : Place → Byte
  | .ram i => (Memory.find? s.ram i).getD (ramDefault s.cfg i)
  | .save i => (Memory.find? s.save.cells i).getD 0#8
  | .rom o => (Memory.find? s.rom.cells o).getD 0#8
  | .openBus => s.ext.openBus

/-- Writes a storage byte; ROM and open bus ignore the write (R115, R121). -/
def State.writePlace (s : State) (p : Place) (b : Byte) : State :=
  match p with
  | .ram i => { s with ram := Memory.put (ramUnlisted s.cfg) s.ram i b }
  | .save i => { s with save := { s.save with cells := Memory.put (some 0#8) s.save.cells i b } }
  | .rom _ => s
  | .openBus => s

/-- Whether a write to a storage byte is stored (R112, R115, R116, R121). -/
def Place.writable : Place → Bool
  | .ram _ => true
  | .save _ => true
  | .rom _ => false
  | .openBus => false

/-- The entries that a read of a storage byte records: one for a RAM byte that is unset (R53, R80). -/
def State.unsetPlace (s : State) : Place → List FaultRecord
  | .ram i =>
    if (ramUnlisted s.cfg).isNone && (Memory.find? s.ram i).isNone then [.readUnset (.ram i)] else []
  | .save _ => []
  | .rom _ => []
  | .openBus => []

/-- `BusRead8` (R103). -/
def State.busRead8 (s : State) (a : Phys) : Byte := s.readPlace (s.locate a)

/-- `BusWrite8` (R103). -/
def State.busWrite8 (s : State) (a : Phys) (b : Byte) : State := s.writePlace (s.locate a) b

/-- `MemRead(seg:off, 1)` (R104). -/
def State.mem8 (s : State) (sg off : Word) : Byte := s.busRead8 (phys sg off)

/-- `MemRead(seg:off, 2)` (R105). -/
def State.mem16 (s : State) (sg off : Word) : Word := s.mem8 sg (off + 1#16) ++ s.mem8 sg off

/-- The entries that a byte read records. -/
def State.unsetMem8 (s : State) (sg off : Word) : List FaultRecord := s.unsetPlace (s.locate (phys sg off))

/-- The entries that a word read records, low byte first. -/
def State.unsetMem16 (s : State) (sg off : Word) : List FaultRecord :=
  s.unsetMem8 sg off ++ s.unsetMem8 sg (off + 1#16)

/-- The state after a byte read. -/
def State.noteMem8 (s : State) (sg off : Word) : State := s.record (s.unsetMem8 sg off)

/-- The state after a word read. -/
def State.noteMem16 (s : State) (sg off : Word) : State := s.record (s.unsetMem16 sg off)

/-- `MemWrite(seg:off, 1, v)` (R104). -/
def State.writeMem8 (s : State) (sg off : Word) (v : Byte) : State := s.busWrite8 (phys sg off) v

/-- `MemWrite(seg:off, 2, v)` (R106). -/
def State.writeMem16 (s : State) (sg off : Word) (v : Word) : State :=
  (s.writeMem8 sg off (loByte v)).writeMem8 sg (off + 1#16) (hiByte v)

/-! ## The stack -/

/-- `Push(v)`: SP is read, decremented and written, then the word is stored (R206). -/
def State.push (s : State) (v : Word) : State :=
  let sp := s.reg16 .sp - 2#16
  ((s.note16 .sp).setReg16 .sp sp).writeMem16 s.segs.ss sp v

/-- The word at the top of the stack, which `Pop()` returns (R207). -/
def State.top (s : State) : Word := s.mem16 s.segs.ss (s.reg16 .sp)

/-- `Pop()`: the state after it (R207). -/
def State.drop (s : State) : State :=
  ((s.note16 .sp).noteMem16 s.segs.ss (s.reg16 .sp)).setReg16 .sp (s.reg16 .sp + 2#16)

/-! ## The instruction pointer -/

/-- `IP_next`: the offset after the last byte of the current instruction, its prefixes counted (R15, R37). -/
def State.ipNext (s : State) (i : Instr) : Word := s.ip + BitVec.ofNat 16 (s.cur.pfxLen + i.len)

/-- `IP <- IP_next`. -/
def State.advance (s : State) (i : Instr) : State := s.setIp (s.ipNext i)

/-- `CS <- sel; IP <- off`: a far transfer (R13). -/
def State.setCsIp (s : State) (sel off : Word) : State := (s.setSReg .cs sel).setIp off

/-! ## Interrupt entry and return -/

/-- The offset of entry `n` of the interrupt vector table in segment 0 (R110, R490). -/
def ivtOffset (n : Byte) : Word := zextByte n <<< 2

/-- The jump of an interrupt entry through the vector table: IP and CS are read from entry `n`, and
`halted` is cleared (R490). -/
def State.jumpVector (s : State) (n : Byte) : State :=
  let s1 := (s.noteMem16 0#16 (ivtOffset n)).noteMem16 0#16 (ivtOffset n + 2#16)
  (s1.setCsIp (s.mem16 0#16 (ivtOffset n + 2#16)) (s.mem16 0#16 (ivtOffset n))).setHalted false

/-- Marks that this step's instruction has performed an interrupt entry (R470; DESIGN CHOICE, Log 14). -/
def State.setEntered (s : State) : State := { s with cur := { s.cur with entered := true } }

/-- `Enter(n, ret)` (R490): FLAGS, CS and the return offset are pushed, IF and TF cleared, and control goes
to the handler of vector `n`. -/
def State.enter (s : State) (n : Byte) (ret : Word) : State :=
  let s1 := ((s.push s.flags).setFlag .if_ false).setFlag .tf false
  ((((s1.push s1.segs.cs).push ret)).jumpVector n).setEntered

/-- The return from an interrupt (R430, R491): IP, CS and FLAGS are popped. -/
def State.leaveInterrupt (s : State) : State :=
  let s1 := s.drop
  let s2 := s1.drop
  ((s2.drop).setCsIp s1.top s.top).writeFlags s2.top

end Sys2Proof.Machine
end

