-- ==== Sys2Proof/Machine/Devices.lean ====
section
/-! DEFINITION. The devices: the interrupt controller (60_exceptions.md R520-R531), the timer units
(R540-R547), the PPU (R560-R572), the APU (R580-R587), the mapper's registers (20_memory.md R113), and the
port space that reaches them (20_memory.md R130-R133). -/

namespace Sys2Proof.Machine

/-! ## The interrupt controller -/

/-- The bits below N (R520). -/
def icMask (o : OpenCfg) : BitVec 8 := BitVec.ofNat 8 (2 ^ o.nSources - 1)

/-- Writes the interrupt controller. -/
def State.setIc (s : State) (c : Ic) : State := { s with ic := c }

/-- Writes the host's record of the sources raised (R590). -/
def State.setRaised (s : State) (m : BitVec 8) : State := { s with raised := m }

/-- The bit of source `k`, none where there is no such source (R520). -/
def sourceBit (o : OpenCfg) (k : Nat) : BitVec 8 := (1#8 <<< k) &&& icMask o

/-- `raise(k)` (R522).  The host's record of the sources raised takes it too (R590; DESIGN CHOICE, Log 30). -/
def State.raiseSource (s : State) (k : Nat) : State :=
  (s.setIc { s.ic with pending := s.ic.pending ||| sourceBit s.ext k }).setRaised (s.raised ||| sourceBit s.ext k)

/-- `acknowledge(k)` (R525). -/
def State.acknowledge (s : State) (k : Nat) : State :=
  s.setIc { s.ic with pending := s.ic.pending &&& ~~~(1#8 <<< k) }

/-- The source of the list with the highest priority (R524, R528). -/
def topSource (prio : List Nat) : List Nat → Option Nat
  | [] => none
  | k :: ks =>
    match topSource prio ks with
    | none => some k
    | some j => if prio.getD j 0 ≤ prio.getD k 0 then some k else some j

/-- `highestPending()` (R524). -/
def State.highestPending (s : State) : Option Nat :=
  if s.ic.pending &&& s.ic.enable = 0#8 then none
  else topSource s.ext.priority ((List.range s.ext.nSources).filter fun k => (s.ic.pending &&& s.ic.enable).getLsbD k)

/-- `VectorOf` (R531). -/
def State.vectorOf (s : State) (k : Nat) : Byte := s.ext.vectorOf.getD k 0#8

/-! ## The timer units -/

/-- The unit at a place of the list. -/
def State.timer (s : State) (k : Nat) : Timer := s.timers.getD k {}

/-- Writes a timer unit. -/
def State.setTimer (s : State) (k : Nat) (t : Timer) : State := { s with timers := s.timers.set k t }

/-- The unit after `Underflow` (R541). -/
def timerUnderflow (t : Timer) : Timer := if t.auto then { t with count := t.reload } else { t with en := false }

/-- One tick of one unit: the unit after it, and whether it underflowed (R541). -/
def timerStep (fire : TimerFire) (t : Timer) : Timer × Bool :=
  if !t.en then (t, false)
  else
    match fire with
    | .onBorrowFromZero =>
      if t.count = 0#16 then (timerUnderflow t, true) else ({ t with count := t.count - 1#16 }, false)
    | .onReachZero =>
      let t1 := if t.count = 0#16 then t else { t with count := t.count - 1#16 }
      if t1.count = 0#16 then (timerUnderflow t1, true) else (t1, false)

/-- `TimerTick(k)` (R541); `u` gives the unit's interrupt source. -/
def State.timerTick (s : State) (k : Nat) (u : TimerUnit) : State :=
  let r := timerStep s.cfg.timerFire (s.timer k)
  let s1 := s.setTimer k r.1
  if r.2 then s1.raiseSource u.src else s1

/-- One tick of every unit of the list, in order; `k` is the place of the first (R620). -/
def State.timerTicksFrom (s : State) (k : Nat) : List TimerUnit → State
  | [] => s
  | u :: us => (s.timerTick k u).timerTicksFrom (k + 1) us

/-- One tick of every timer unit (R620). -/
def State.timerTickAll (s : State) : State := s.timerTicksFrom 0 s.ext.timers

/-! ## The PPU -/

/-- Writes the PPU. -/
def State.setPpu (s : State) (p : Ppu) : State := { s with ppu := p }

/-- BG_EN (R568). -/
def bgEn (pctl : Byte) : Bool := pctl.getLsbD 0

/-- SPR_EN (R568). -/
def sprEn (pctl : Byte) : Bool := pctl.getLsbD 1

/-- The sprites of row `y`: the first `SPRITES_PER_LINE` of the table that cover it (R566, R570). -/
def rowSprites (o : OpenCfg) (ram : Memory) (y : Nat) : List Nat :=
  ((List.range o.spriteCount).filter fun i => Config.spriteCovers ram i y).take o.spritesPerLine

/-- The first opaque sprite pixel and its priority bit; `(0, false)` where there is none (R566). -/
def spritePixel (ram : Memory) (y x : Nat) : List Nat → Nat × Bool
  | [] => (0, false)
  | i :: is =>
    let q := Config.sprIndex ram i y x
    if q ≠ 0 then (q, Config.sprOver ram i) else spritePixel ram y x is

/-- The pixel at column `x` of row `y` (R566); `sprites` are the sprites of the row. -/
def pixelColor (pctl : Byte) (ram : Memory) (sprites : List Nat) (y x : Nat) : Nat :=
  let b := if bgEn pctl then Config.bgIndex ram y x else 0
  let q := if sprEn pctl then spritePixel ram y x sprites else (0, false)
  if q.1 ≠ 0 ∧ (q.2 = true ∨ b = 0) then Config.sprColor ram q.1 else Config.bgColor ram b

/-- The pixels of row `y` (R566). -/
def composeRow (o : OpenCfg) (pctl : Byte) (ram : Memory) (y : Nat) : List Nat :=
  let sprites := rowSprites o ram y
  (List.range o.visibleDots).map fun x => pixelColor pctl ram sprites y x

/-- A buffer with its row `y` written; rows not yet composed are empty (DESIGN CHOICE, Log 19). -/
def setRow (fb : List (List Nat)) (y : Nat) (row : List Nat) : List (List Nat) :=
  (fb ++ List.replicate (y + 1 - fb.length) []).set y row

/-- `ComposeRow(line)` into the working buffer (R566). -/
def State.composeLine (s : State) : State :=
  let row := composeRow s.ext s.ppu.pctl s.ram s.ppu.line
  s.setPpu { s.ppu with fbWork := setRow s.ppu.fbWork s.ppu.line row, rowBuf := row }

/-- The end of a line: dot 0 of the next one (R562). -/
def State.ppuNextLine (s : State) : State :=
  let l := s.ppu.line + 1
  let s1 := s.setPpu { s.ppu with dot := 0, line := l }
  if l = s.ext.visibleLines then
    (s1.setPpu { s1.ppu with mode := .vblank, fbDone := some s1.ppu.fbWork, vblankEdge := true }).raiseSource
      s.ext.vblankSrc
  else if l = s.ext.totalLines then s1.setPpu { s1.ppu with line := 0, mode := .visible }
  else if l < s.ext.visibleLines then s1.setPpu { s1.ppu with mode := .visible }
  else s1

/-- `PpuDot()` (R562-R565, R567). -/
def State.ppuDot (s : State) : State :=
  let s1 := s.setPpu { s.ppu with dot := s.ppu.dot + 1 }
  let s2 :=
    if s1.ppu.dot = s.ext.visibleDots ∧ s1.ppu.line < s.ext.visibleLines then
      (s1.setPpu { s1.ppu with mode := .hblank }).raiseSource s.ext.hblankSrc
    else s1
  if s2.ppu.dot = s.ext.lineDots then
    (if s2.ppu.line < s.ext.visibleLines then s2.composeLine else s2).ppuNextLine
  else s2

/-! ## The APU -/

/-- The channel at a place of the list. -/
def State.channel (s : State) (k : Nat) : Channel := s.apu.getD k {}

/-- Writes an APU channel. -/
def State.setChannel (s : State) (k : Nat) (c : Channel) : State := { s with apu := s.apu.set k c }

/-- chen (R584). -/
def chen (c : Channel) : Bool := c.ctrl.getLsbD 0

/-- duty (R584). -/
def duty (c : Channel) : BitVec 3 := c.ctrl.extractLsb' 1 3

/-- envrate (R584). -/
def envRate (c : Channel) : Byte := (c.envReg.extractLsb' 0 6).setWidth 8

/-- envdir (R584): none, or up (true) or down (false). -/
def envDir (c : Channel) : Option Bool :=
  if c.envReg.extractLsb' 6 2 = 1#2 then some true
  else if c.envReg.extractLsb' 6 2 = 2#2 then some false
  else none

/-- `EnvelopeStep` (R582, D45). -/
def envStep (e : EnvelopeStep) (vol : BitVec 4) (up : Bool) : BitVec 4 :=
  match e with
  | .custom => Config.envelopeStep vol up
  | .standard =>
    if up then (if vol = 15#4 then 15#4 else vol + 1#4) else (if vol = 0#4 then 0#4 else vol - 1#4)

/-- `EnvelopeTick` (R582). -/
def envelopeTick (e : EnvelopeStep) (c : Channel) : Channel :=
  match envDir c with
  | none => c
  | some up =>
    if envRate c = 0#8 then c
    else if c.env ≠ 0#8 then { c with env := c.env - 1#8 }
    else { c with env := envRate c, vol := envStep e c.vol up }

/-- `AdvancePhase` (R581). -/
def advancePhase (k : ChannelKind) (c : Channel) : Channel :=
  match k with
  | .square => { c with phase := BitVec.ofNat 15 ((c.phase.toNat + 1) % 8) }
  | .noise => { c with phase := Config.lfsrStep c.phase }
  | .pcm => { c with phase := c.data.setWidth 15 }

/-- `ChannelTick` (R581). -/
def channelTick (e : EnvelopeStep) (k : ChannelKind) (c : Channel) : Channel :=
  if !chen c then c
  else
    let c1 := if c.div = 0#16 then advancePhase k { c with div := c.period } else { c with div := c.div - 1#16 }
    envelopeTick e c1

/-- `Out(c)` (R583). -/
def channelOut (k : ChannelKind) (c : Channel) : Int :=
  if !chen c then 0
  else
    match k with
    | .square => if c.phase.toNat < (duty c).toNat then (c.vol.toNat : Int) else 0
    | .noise => if c.phase.getLsbD 0 then 0 else (c.vol.toNat : Int)
    | .pcm => (c.phase.toNat : Int)

/-- The mixed sample, clipped (R583). -/
def mixSample (o : OpenCfg) (units : List ChannelUnit) (chans : List Channel) : Int :=
  let sum := ((units.zip chans).map fun p => channelOut p.1.kind p.2).sum
  max o.mixMin (min sum o.mixMax)

/-- Whether the host has muted the audio (R586, R594). -/
def State.muted (s : State) : Bool :=
  match s.mode with
  | .normal => false
  | .mute => true
  | .trace => true

/-- Every channel of the list after its `ChannelTick`; the units give the kinds. -/
def channelTicks (e : EnvelopeStep) : List ChannelUnit → List Channel → List Channel
  | u :: us, c :: cs => channelTick e u.kind c :: channelTicks e us cs
  | _, cs => cs

/-- `ApuTick()`: every channel's tick, then the mixer (R581, R583, R586, R620). -/
def State.apuTick (s : State) : State :=
  let chans := channelTicks s.cfg.envelopeStep s.ext.channels s.apu
  let out := mixSample s.ext s.ext.channels chans
  { s with apu := chans, samples := if s.muted then s.samples else s.samples ++ [out] }

/-! ## The port space -/

/-- The registers of a timer unit (R546). -/
inductive TimerReg where
  | control | reloadLo | reloadHi | countLo | countHi
deriving DecidableEq, Repr

/-- The bank registers (R113). -/
inductive BankReg where
  | lin | save | rom0 | rom1
deriving DecidableEq, Repr

/-- A device register of the port space (R131): unit `k` of the timer, register `r` of channel `k`. -/
inductive PortReg where
  | icEnable | icStatus | icAck
  | timer (k : Nat) (r : TimerReg)
  | pctl | line
  | apu (k : Nat) (r : Nat)
  | bank (b : BankReg)
deriving DecidableEq, Repr

/-- The timer register at a port; `k` is the place of the first unit of the list (R546). -/
def timerAt (p : Word) (k : Nat) : List TimerUnit → Option PortReg
  | [] => none
  | u :: us =>
    if p = u.control then some (.timer k .control)
    else if p = u.reloadLo then some (.timer k .reloadLo)
    else if p = u.reloadHi then some (.timer k .reloadHi)
    else if p = u.countLo then some (.timer k .countLo)
    else if p = u.countHi then some (.timer k .countHi)
    else timerAt p (k + 1) us

/-- The APU register at a port; `k` is the place of the first channel of the list (R585). -/
def apuAt (p : Word) (k : Nat) : List ChannelUnit → Option PortReg
  | [] => none
  | u :: us => if (p - u.base).toNat < 6 then some (.apu k (p - u.base).toNat) else apuAt p (k + 1) us

/-- The bank register at a port (R113). -/
def bankAt (b : BankPorts) (p : Word) : Option PortReg :=
  if p = b.lin then some (.bank .lin)
  else if p = b.save then some (.bank .save)
  else if p = b.rom0 then some (.bank .rom0)
  else if p = b.rom1 then some (.bank .rom1)
  else none

/-- The interrupt controller's register at a port (R530). -/
def icAt (o : OpenCfg) (p : Word) : Option PortReg :=
  if p = o.icPorts.enable then some .icEnable
  else if p = o.icPorts.status then some .icStatus
  else if p = o.icPorts.ack then some .icAck
  else none

/-- The PPU register at a port (R568). -/
def ppuAt (o : OpenCfg) (p : Word) : Option PortReg :=
  if p = o.ppuPorts.pctl then some .pctl else if p = o.ppuPorts.line then some .line else none

/-- The port that a port number names: its low `PORT_WIDTH` bits (R10, D24; DESIGN CHOICE, Log 29).  With the default width
of 16 it is the number itself (R130). -/
def portNumber (c : Cfg) (p : Word) : Word := BitVec.ofNat 16 (p.toNat % 2 ^ c.portWidth)

/-- The register at a port (R131). -/
def portReg (c : Cfg) (o : OpenCfg) (p : Word) : Option PortReg :=
  icAt o p <|> timerAt p 0 o.timers <|> ppuAt o p <|> apuAt p 0 o.channels <|> bankAt c.bankPorts p

/-- The register that a port number reaches (R131). -/
def State.portOwner (s : State) (p : Word) : Option PortReg := portReg s.cfg s.ext (portNumber s.cfg p)

/-- A timer register's value (R545). -/
def timerRead (t : Timer) : TimerReg → Byte
  | .control => (bitVal 8 t.auto <<< 1) ||| bitVal 8 t.en
  | .reloadLo => loByte t.reload
  | .reloadHi => hiByte t.reload
  | .countLo => loByte t.count
  | .countHi => hiByte t.count

/-- A timer unit after a register write (R543, R544). -/
def timerWrite (t : Timer) (r : TimerReg) (v : Byte) : Timer :=
  match r with
  | .control =>
    { t with en := v.getLsbD 0, auto := v.getLsbD 1, count := if !t.en && v.getLsbD 0 then t.reload else t.count }
  | .reloadLo => { t with reload := hiByte t.reload ++ v }
  | .reloadHi => { t with reload := v ++ loByte t.reload }
  | .countLo => { t with count := hiByte t.count ++ v }
  | .countHi => { t with count := v ++ loByte t.count }

/-- A channel register's value (R584). -/
def channelRead (c : Channel) (r : Nat) : Byte :=
  match r with
  | 0 => loByte c.period
  | 1 => hiByte c.period
  | 2 => c.vol.setWidth 8
  | 3 => c.envReg
  | 4 => c.ctrl
  | _ => c.data

/-- The phase a channel restarts with (R584). -/
def restartPhase (o : OpenCfg) (k : ChannelKind) : BitVec 15 :=
  match k with
  | .square => 0#15
  | .noise => o.lfsrSeed
  | .pcm => 0#15

/-- A channel after a register write (R584). -/
def channelWrite (o : OpenCfg) (k : ChannelKind) (c : Channel) (r : Nat) (v : Byte) : Channel :=
  match r with
  | 0 => { c with period := hiByte c.period ++ v }
  | 1 => { c with period := v ++ loByte c.period }
  | 2 => { c with vol := v.extractLsb' 0 4 }
  | 3 => { c with envReg := v }
  | 4 =>
    if !chen c && v.getLsbD 0 then
      { c with ctrl := v, div := c.period, env := envRate c, phase := restartPhase o k }
    else { c with ctrl := v }
  | _ => { c with data := v }

/-- The kind of the channel at a place of the list. -/
def channelKind (o : OpenCfg) (k : Nat) : ChannelKind := ((o.channels[k]?).map (·.kind)).getD .square

/-- A bank register's value (R113). -/
def bankRead (b : Banks) : BankReg → Byte
  | .lin => b.lin | .save => b.save | .rom0 => b.rom0 | .rom1 => b.rom1

/-- The bank registers after a write (R113). -/
def bankWrite (b : Banks) (r : BankReg) (v : Byte) : Banks :=
  match r with
  | .lin => { b with lin := v }
  | .save => { b with save := v }
  | .rom0 => { b with rom0 := v }
  | .rom1 => { b with rom1 := v }

/-- What a port that no device owns reads as: the host's input port (R595), else `OPEN_BUS_PORT` (R131). -/
def inputOr (input : List (Word × Byte)) (p : Word) (dflt : Byte) : Byte :=
  match input with
  | [] => dflt
  | q :: qs => if q.1 = p then q.2 else inputOr qs p dflt

/-- `PortRead(p, 1)` (R130, R131). No read has a side effect. -/
def State.portRead8 (s : State) (p : Word) : Byte :=
  match s.portOwner p with
  | some .icEnable => s.ic.enable
  | some .icStatus => s.ic.pending
  | some .icAck => s.ext.openBusPort
  | some (.timer k r) => timerRead (s.timer k) r
  | some .pctl => s.ppu.pctl
  | some .line => BitVec.ofNat 8 (s.ppu.line % 256)
  | some (.apu k r) => channelRead (s.channel k) r
  | some (.bank r) => bankRead s.banks r
  | none => inputOr s.input (portNumber s.cfg p) s.ext.openBusPort

/-- `PortWrite(p, 1, v)` (R130, R131). -/
def State.portWrite8 (s : State) (p : Word) (v : Byte) : State :=
  match s.portOwner p with
  | some .icEnable => s.setIc { s.ic with enable := v &&& icMask s.ext }
  | some .icStatus => s
  | some .icAck => s.setIc { s.ic with pending := s.ic.pending &&& ~~~(v &&& icMask s.ext) }
  | some (.timer k r) => s.setTimer k (timerWrite (s.timer k) r v)
  | some .pctl => s.setPpu { s.ppu with pctl := v }
  | some .line => s
  | some (.apu k r) => s.setChannel k (channelWrite s.ext (channelKind s.ext k) (s.channel k) r v)
  | some (.bank r) => { s with banks := bankWrite s.banks r v }
  | none => s

/-- `PortRead(p, 2)` (R130). -/
def State.portRead16 (s : State) (p : Word) : Word := s.portRead8 (p + 1#16) ++ s.portRead8 p

/-- `PortWrite(p, 2, v)`: the low port first (R130). -/
def State.portWrite16 (s : State) (p v : Word) : State :=
  (s.portWrite8 p (loByte v)).portWrite8 (p + 1#16) (hiByte v)

end Sys2Proof.Machine
end

