-- ==== Sys2Proof/Machine/Operands.lean ====
section
/-! DEFINITION. Operands: effective addresses (30_encoding.md R163-R166), the E, G and immediate operands
(00_scope.md R18, 30_encoding.md R162, R168), and the shared operand patterns of the instruction families. -/

namespace Sys2Proof.Machine

/-! ## Effective addresses -/

/-- The base registers of a memory operand, in the order they are read (R163). -/
def baseRegs : Base → List Reg16
  | .bxsi => [.bx, .si] | .bxdi => [.bx, .di] | .bpsi => [.bp, .si] | .bpdi => [.bp, .di]
  | .si => [.si] | .di => [.di] | .bp => [.bp] | .bx => [.bx]

/-- The sum of the base registers (R163). -/
def State.baseSum (s : State) : Base → Word
  | .bxsi => s.reg16 .bx + s.reg16 .si
  | .bxdi => s.reg16 .bx + s.reg16 .di
  | .bpsi => s.reg16 .bp + s.reg16 .si
  | .bpdi => s.reg16 .bp + s.reg16 .di
  | .si => s.reg16 .si
  | .di => s.reg16 .di
  | .bp => s.reg16 .bp
  | .bx => s.reg16 .bx

/-- The displacement as a word (R164). -/
def dispWord : Disp → Word
  | .none => 0#16
  | .d8 d => sextByte d
  | .d16 d => d

/-- The effective offset of a memory operand (R165). -/
def State.eaOff (s : State) : Mem → Word
  | .direct off => off
  | .based b d => s.baseSum b + dispWord d

/-- The default segment of a memory operand (R163). -/
def defaultSeg : Mem → SReg
  | .direct _ => .ds
  | .based .bpsi _ => .ss
  | .based .bpdi _ => .ss
  | .based .bp _ => .ss
  | .based _ _ => .ds

/-- The segment of an overridable operand: the override in effect, or its default (R153, R166). -/
def State.segOr (s : State) (dflt : SReg) : Word := s.sreg (s.cur.segOvr.getD dflt)

/-- The segment of a memory operand (R166). -/
def State.eaSeg (s : State) (m : Mem) : Word := s.segOr (defaultSeg m)

/-- The entries that reading each of the listed registers records. -/
def State.unsetRegs (s : State) : List Reg16 → List FaultRecord
  | [] => []
  | r :: rs => s.unset16 r ++ s.unsetRegs rs

/-- The entries that computing an effective offset records: its base registers are read. -/
def State.unsetEa (s : State) : Mem → List FaultRecord
  | .direct _ => []
  | .based b _ => s.unsetRegs (baseRegs b)

/-- The state after computing an effective offset. -/
def State.noteEa (s : State) (m : Mem) : State := s.record (s.unsetEa m)

/-! ## The operand E -/

/-- Where E of width 8 is, its address already computed (R18, R165). -/
inductive Loc8 where
  | reg (r : Reg8)
  | mem (sg off : Word)
deriving DecidableEq, Repr

/-- Where E of width 16 is. -/
inductive Loc16 where
  | reg (r : Reg16)
  | mem (sg off : Word)
deriving DecidableEq, Repr

/-- Resolves E of width 8 at the start of the instruction (R162, R165, R166). -/
def State.loc8 (s : State) : Rm8 → Loc8
  | .reg r => .reg r
  | .mem m => .mem (s.eaSeg m) (s.eaOff m)

/-- Resolves E of width 16 at the start of the instruction. -/
def State.loc16 (s : State) : Rm16 → Loc16
  | .reg r => .reg r
  | .mem m => .mem (s.eaSeg m) (s.eaOff m)

/-- The value at a location of width 8 (R18). -/
def State.read8 (s : State) : Loc8 → Byte
  | .reg r => s.reg8 r
  | .mem sg off => s.mem8 sg off

/-- The value at a location of width 16. -/
def State.read16 (s : State) : Loc16 → Word
  | .reg r => s.reg16 r
  | .mem sg off => s.mem16 sg off

/-- Writes a location of width 8 (R18). -/
def State.write8 (s : State) (l : Loc8) (v : Byte) : State :=
  match l with
  | .reg r => s.setReg8 r v
  | .mem sg off => s.writeMem8 sg off v

/-- Writes a location of width 16. -/
def State.write16 (s : State) (l : Loc16) (v : Word) : State :=
  match l with
  | .reg r => s.setReg16 r v
  | .mem sg off => s.writeMem16 sg off v

/-- The entries that reading a location of width 8 records. -/
def State.unsetLoc8 (s : State) : Loc8 → List FaultRecord
  | .reg r => s.unset8 r
  | .mem sg off => s.unsetMem8 sg off

/-- The entries that reading a location of width 16 records. -/
def State.unsetLoc16 (s : State) : Loc16 → List FaultRecord
  | .reg r => s.unset16 r
  | .mem sg off => s.unsetMem16 sg off

/-- The entries that resolving E of width 8 records: the base registers of a memory operand are read. -/
def State.unsetAddr8 (s : State) : Rm8 → List FaultRecord
  | .reg _ => []
  | .mem m => s.unsetEa m

/-- The entries that resolving E of width 16 records. -/
def State.unsetAddr16 (s : State) : Rm16 → List FaultRecord
  | .reg _ => []
  | .mem m => s.unsetEa m

/-- The state after resolving E of width 8. -/
def State.resolve8 (s : State) (e : Rm8) : State := s.record (s.unsetAddr8 e)

/-- The state after resolving E of width 16. -/
def State.resolve16 (s : State) (e : Rm16) : State := s.record (s.unsetAddr16 e)

/-- The state after reading a location of width 8. -/
def State.noteLoc8 (s : State) (l : Loc8) : State := s.record (s.unsetLoc8 l)

/-- The state after reading a location of width 16. -/
def State.noteLoc16 (s : State) (l : Loc16) : State := s.record (s.unsetLoc16 l)

/-- The value of E of width 8. -/
def State.rm8 (s : State) (e : Rm8) : Byte := s.read8 (s.loc8 e)

/-- The value of E of width 16. -/
def State.rm16 (s : State) (e : Rm16) : Word := s.read16 (s.loc16 e)

/-- The state after resolving and reading E of width 8. -/
def State.fetch8 (s : State) (e : Rm8) : State := (s.resolve8 e).noteLoc8 (s.loc8 e)

/-- The state after resolving and reading E of width 16. -/
def State.fetch16 (s : State) (e : Rm16) : State := (s.resolve16 e).noteLoc16 (s.loc16 e)

/-! ## Source operands -/

/-- A source operand of width 8: E, G or the accumulator, or an immediate. -/
inductive Src8 where
  | rm (e : Rm8)
  | imm (b : Byte)
deriving DecidableEq, Repr

/-- A source operand of width 16; a sign-extended byte is an immediate word (R168). -/
inductive Src16 where
  | rm (e : Rm16)
  | imm (v : Word)
deriving DecidableEq, Repr

/-- The value of a source operand of width 8. -/
def State.src8 (s : State) : Src8 → Byte
  | .rm e => s.rm8 e
  | .imm b => b

/-- The value of a source operand of width 16. -/
def State.src16 (s : State) : Src16 → Word
  | .rm e => s.rm16 e
  | .imm v => v

/-- The entries that resolving a source operand of width 8 records. -/
def State.unsetSrcAddr8 (s : State) : Src8 → List FaultRecord
  | .rm e => s.unsetAddr8 e
  | .imm _ => []

/-- The entries that resolving a source operand of width 16 records. -/
def State.unsetSrcAddr16 (s : State) : Src16 → List FaultRecord
  | .rm e => s.unsetAddr16 e
  | .imm _ => []

/-- The entries that reading a resolved source operand of width 8 records. -/
def State.unsetSrc8 (s : State) : Src8 → List FaultRecord
  | .rm e => s.unsetLoc8 (s.loc8 e)
  | .imm _ => []

/-- The entries that reading a resolved source operand of width 16 records. -/
def State.unsetSrc16 (s : State) : Src16 → List FaultRecord
  | .rm e => s.unsetLoc16 (s.loc16 e)
  | .imm _ => []

/-- The state after reading a source of width 8 whose destination is only resolved: both addresses are computed
first (R141, R165). -/
def State.fetchSrc8 (s : State) (e : Rm8) (src : Src8) : State :=
  s.record (s.unsetAddr8 e ++ s.unsetSrcAddr8 src ++ s.unsetSrc8 src)

/-- As `State.fetchSrc8`, of width 16. -/
def State.fetchSrc16 (s : State) (e : Rm16) (src : Src16) : State :=
  s.record (s.unsetAddr16 e ++ s.unsetSrcAddr16 src ++ s.unsetSrc16 src)

/-- The state after reading a destination and then a source of width 8, both resolved first (R141). -/
def State.fetchPair8 (s : State) (e : Rm8) (src : Src8) : State :=
  s.record (s.unsetAddr8 e ++ s.unsetSrcAddr8 src ++ s.unsetLoc8 (s.loc8 e) ++ s.unsetSrc8 src)

/-- The state after reading a destination and then a source of width 16, both resolved first. -/
def State.fetchPair16 (s : State) (e : Rm16) (src : Src16) : State :=
  s.record (s.unsetAddr16 e ++ s.unsetSrcAddr16 src ++ s.unsetLoc16 (s.loc16 e) ++ s.unsetSrc16 src)

end Sys2Proof.Machine
end

