-- ==== Sys2Proof/Machine/Patterns.lean ====
section
/-! DEFINITION. What the instructions of one operation share: one function of the state per operation
and width, over resolved operands (40_data_transfer.md to 45_processor_control.md).  None of them moves
IP except where it takes an exception or a transfer; the meanings in the family files do. -/

namespace Sys2Proof.Machine

/-- The outcome of an instruction. -/
abbrev Result := Host.Outcome State Fault Refusal

/-! ## Data transfer -/

/-- `dst <- src` of width 8; the destination is not read (R200-R203). -/
def State.mov8 (s : State) (dst : Rm8) (src : Src8) : State :=
  (s.fetchSrc8 dst src).write8 (s.loc8 dst) (s.src8 src)

/-- `dst <- src` of width 16. -/
def State.mov16 (s : State) (dst : Rm16) (src : Src16) : State :=
  (s.fetchSrc16 dst src).write16 (s.loc16 dst) (s.src16 src)

/-- `E <- x[Sreg]` (R204). -/
def State.movFromSReg (s : State) (e : Rm16) (r : SReg) : State := (s.resolve16 e).write16 (s.loc16 e) (s.sreg r)

/-- `x[Sreg] <- E` (R205). -/
def State.movToSReg (s : State) (r : SReg) (e : Rm16) : State := (s.fetch16 e).setSReg r (s.rm16 e)

/-- `Push(x[r])`, the register read first (R208, R215). -/
def State.pushReg (s : State) (r : Reg16) : State := (s.note16 r).push (s.reg16 r)

/-- PUSH of a general register: PUSH SP pushes the decremented SP under `PUSH_SP_NEW` (R208). -/
def State.pushGeneral (s : State) (r : Reg16) : State :=
  if r = .sp ∧ s.cfg.pushSpNew = true then s.push (s.reg16 .sp - 2#16) else s.pushReg r

/-- `x[r] <- Pop()` (R212). -/
def State.popReg (s : State) (r : Reg16) : State := s.drop.setReg16 r s.top

/-- `x[Sreg] <- Pop()` (R213). -/
def State.popSReg (s : State) (r : SReg) : State := s.drop.setSReg r s.top

/-- `E <- Pop()`, the address computed first (R214). -/
def State.popRm (s : State) (e : Rm16) : State := (s.resolve16 e).drop.write16 (s.loc16 e) s.top

/-- PUSHA (R215). -/
def State.pushAll (s : State) : State :=
  let t := s.reg16 .sp
  let s1 := ((((s.note16 .sp).pushReg .ax).pushReg .cx).pushReg .dx).pushReg .bx
  (((s1.push t).pushReg .bp).pushReg .si).pushReg .di

/-- POPA: the stored SP is skipped (R216). -/
def State.popAll (s : State) : State :=
  let s1 := ((s.popReg .di).popReg .si).popReg .bp
  let s2 := s1.setReg16 .sp (s1.reg16 .sp + 2#16)
  (((s2.popReg .bx).popReg .dx).popReg .cx).popReg .ax

/-- XCHG of width 8: `t <- E; E <- G; G <- t` (R217). -/
def State.xchg8 (s : State) (e : Rm8) (g : Reg8) : State :=
  ((s.fetchPair8 e (.rm (.reg g))).write8 (s.loc8 e) (s.reg8 g)).setReg8 g (s.rm8 e)

/-- XCHG of width 16. -/
def State.xchg16 (s : State) (e : Rm16) (g : Reg16) : State :=
  ((s.fetchPair16 e (.rm (.reg g))).write16 (s.loc16 e) (s.reg16 g)).setReg16 g (s.rm16 e)

/-- LDS and LES: both words are read, then the register and the segment register are written (R221,
R222). -/
def State.loadFar (s : State) (r : SReg) (g : Reg16) (m : Mem) : State :=
  let sg := s.eaSeg m
  let off := s.eaOff m
  ((((s.noteEa m).noteMem16 sg off).noteMem16 sg (off + 2#16)).setReg16 g (s.mem16 sg off)).setSReg r
    (s.mem16 sg (off + 2#16))

/-- XLAT (R219). -/
def State.translate (s : State) : State :=
  let off := s.reg16 .bx + zextByte (s.reg8 .al)
  (((s.note16 .bx).note8 .al).noteMem8 (s.segOr .ds) off).setReg8 .al (s.mem8 (s.segOr .ds) off)

/-- The flags word after SAHF: the low flags from AH (R224). -/
def sahfFlags (ah : Byte) (fl : Word) : Word :=
  flagPut
    (flagPut
      (flagPut (flagPut (flagPut fl .sf (ah.getLsbD 7)) .zf (ah.getLsbD 6)) .af (ah.getLsbD 4)) .pf (ah.getLsbD 2))
    .cf (ah.getLsbD 0)

/-! ## Arithmetic and logic -/

/-- `dst <- dst op src` with its flags, of width 8; CMP writes no operand (R261-R265, R321-R323). -/
def State.alu8 (s : State) (op : AluOp) (dst : Rm8) (src : Src8) : State :=
  let a := s.rm8 dst
  let b := s.src8 src
  let s1 := (s.fetchPair8 dst src).setFlags (aluFlags op a b s.flags)
  if op = .cmp then s1 else s1.write8 (s.loc8 dst) (aluRes op a b s.flags)

/-- `dst <- dst op src` with its flags, of width 16. -/
def State.alu16 (s : State) (op : AluOp) (dst : Rm16) (src : Src16) : State :=
  let a := s.rm16 dst
  let b := s.src16 src
  let s1 := (s.fetchPair16 dst src).setFlags (aluFlags op a b s.flags)
  if op = .cmp then s1 else s1.write16 (s.loc16 dst) (aluRes op a b s.flags)

/-- TEST of width 8: the flags of the AND, no operand written (R324). -/
def State.test8 (s : State) (e : Rm8) (src : Src8) : State :=
  let a := s.rm8 e
  let b := s.src8 src
  (s.fetchPair8 e src).setFlags (logicFlags .test a b (a &&& b) s.flags)

/-- TEST of width 16. -/
def State.test16 (s : State) (e : Rm16) (src : Src16) : State :=
  let a := s.rm16 e
  let b := s.src16 src
  (s.fetchPair16 e src).setFlags (logicFlags .test a b (a &&& b) s.flags)

/-- `E <- f(E)` with flags `g(E, FLAGS)`, of width 8: INC, DEC, NEG and NOT. -/
def State.unary8 (s : State) (f : Byte → Byte) (g : Byte → Word → Word) (e : Rm8) : State :=
  ((s.fetch8 e).setFlags (g (s.rm8 e) s.flags)).write8 (s.loc8 e) (f (s.rm8 e))

/-- `E <- f(E)` with flags `g(E, FLAGS)`, of width 16. -/
def State.unary16 (s : State) (f : Word → Word) (g : Word → Word → Word) (e : Rm16) : State :=
  ((s.fetch16 e).setFlags (g (s.rm16 e) s.flags)).write16 (s.loc16 e) (f (s.rm16 e))

/-- INC of width 8 (R267). -/
def State.inc8 (s : State) (e : Rm8) : State := s.unary8 (fun x => addRes x 1#8 false) incFlags e

/-- INC of width 16 (R266, R267). -/
def State.inc16 (s : State) (e : Rm16) : State := s.unary16 (fun x => addRes x 1#16 false) incFlags e

/-- DEC of width 8 (R269). -/
def State.dec8 (s : State) (e : Rm8) : State := s.unary8 (fun x => subRes x 1#8 false) decFlags e

/-- DEC of width 16 (R268, R269). -/
def State.dec16 (s : State) (e : Rm16) : State := s.unary16 (fun x => subRes x 1#16 false) decFlags e

/-- NEG of width 8 (R270). -/
def State.neg8 (s : State) (e : Rm8) : State :=
  s.unary8 (fun x => subRes 0#8 x false) (fun x fl => subFlags 0#8 x false fl) e

/-- NEG of width 16 (R270). -/
def State.neg16 (s : State) (e : Rm16) : State :=
  s.unary16 (fun x => subRes 0#16 x false) (fun x fl => subFlags 0#16 x false fl) e

/-- NOT of width 8 (R325). -/
def State.not8 (s : State) (e : Rm8) : State := s.unary8 (fun x => x ^^^ 0xFF#8) (fun _ fl => fl) e

/-- NOT of width 16 (R325). -/
def State.not16 (s : State) (e : Rm16) : State := s.unary16 (fun x => x ^^^ 0xFFFF#16) (fun _ fl => fl) e

/-- The state after AL (width 8) and E are read, for MUL, IMUL. -/
def State.fetchMul8 (s : State) (e : Rm8) : State := ((s.resolve8 e).note8 .al).noteLoc8 (s.loc8 e)

/-- The state after AX and E are read, for MUL, IMUL of width 16 and DIV, IDIV of width 8. -/
def State.fetchMul16 (s : State) (e : Rm16) : State := ((s.resolve16 e).note16 .ax).noteLoc16 (s.loc16 e)

/-- The state after AX and E of width 8 are read, for DIV and IDIV. -/
def State.fetchDiv8 (s : State) (e : Rm8) : State := ((s.resolve8 e).note16 .ax).noteLoc8 (s.loc8 e)

/-- The state after DX, AX and E of width 16 are read, for DIV and IDIV. -/
def State.fetchDiv16 (s : State) (e : Rm16) : State :=
  (((s.resolve16 e).note16 .dx).note16 .ax).noteLoc16 (s.loc16 e)

/-- MUL of width 8 (R271). -/
def State.mul8 (s : State) (e : Rm8) : State :=
  let a := s.reg8 .al
  let b := s.rm8 e
  let p := BitVec.ofNat 16 (a.toNat * b.toNat)
  ((s.fetchMul8 e).setReg16 .ax p).setFlags (mulFlags .mul 8 a.toNat b.toNat (decide (hiByte p ≠ 0#8)) s.flags)

/-- MUL of width 16 (R271). -/
def State.mul16 (s : State) (e : Rm16) : State :=
  let a := s.reg16 .ax
  let b := s.rm16 e
  let p := BitVec.ofNat 32 (a.toNat * b.toNat)
  let hi : Word := p.extractLsb' 16 16
  (((s.fetchMul16 e).setReg16 .dx hi).setReg16 .ax (p.extractLsb' 0 16)).setFlags
    (mulFlags .mul 16 a.toNat b.toNat (decide (hi ≠ 0#16)) s.flags)

/-- IMUL of width 8, one operand (R272). -/
def State.imul8 (s : State) (e : Rm8) : State :=
  let a := s.reg8 .al
  let b := s.rm8 e
  let p : Int := a.toInt * b.toInt
  ((s.fetchMul8 e).setReg16 .ax (BitVec.ofInt 16 p)).setFlags
    (mulFlags .imul 8 a.toNat b.toNat (signedBig 8 p) s.flags)

/-- IMUL of width 16, one operand (R272). -/
def State.imul16 (s : State) (e : Rm16) : State :=
  let a := s.reg16 .ax
  let b := s.rm16 e
  let p : Int := a.toInt * b.toInt
  let v := BitVec.ofInt 32 p
  (((s.fetchMul16 e).setReg16 .dx (v.extractLsb' 16 16)).setReg16 .ax (v.extractLsb' 0 16)).setFlags
    (mulFlags .imul 16 a.toNat b.toNat (signedBig 16 p) s.flags)

/-- IMUL of three operands (R273). -/
def State.imul3 (s : State) (g : Reg16) (e : Rm16) (i : Word) : State :=
  let a := s.rm16 e
  let p : Int := a.toInt * i.toInt
  ((s.fetch16 e).setReg16 g (BitVec.ofInt 16 p)).setFlags
    (mulFlags .imul 16 a.toNat i.toNat (signedBig 16 p) s.flags)

/-- The return address of a divide error (R481, D12). -/
def State.divErrIp (s : State) (i : Instr) : Word :=
  match s.cfg.divErrReturn with
  | .next => s.ipNext i
  | .current => s.ip

/-- A divide error of instruction `i` (R481, R482), from the state after its operand reads. -/
def State.divError (s : State) (i : Instr) : State := s.enter 0#8 (s.divErrIp i)

/-- The end of DIV and IDIV of width 8: AL and AH are written, or the divide error is taken (R274, R275). -/
def State.divWrite8 (s : State) (i : Instr) (op : Config.UndefOp) (n : Word) (d : Byte)
    (q : Option (Byte × Byte)) : State :=
  match q with
  | none => s.divError i
  | some (q, r) => ((s.setReg16 .ax (r ++ q)).setFlags (divFlags op 8 n.toNat d.toNat s.flags)).advance i

/-- The end of DIV and IDIV of width 16: AX and DX are written, or the divide error is taken. -/
def State.divWrite16 (s : State) (i : Instr) (op : Config.UndefOp) (n : BitVec 32) (d : Word)
    (q : Option (Word × Word)) : State :=
  match q with
  | none => s.divError i
  | some (q, r) =>
    (((s.setReg16 .ax q).setReg16 .dx r).setFlags (divFlags op 16 n.toNat d.toNat s.flags)).advance i

/-- DX ++ AX. -/
def State.dxax (s : State) : BitVec 32 := s.reg16 .dx ++ s.reg16 .ax

/-- DIV of width 8 (R274). -/
def State.div8 (s : State) (i : Instr) (e : Rm8) : State :=
  (s.fetchDiv8 e).divWrite8 i .div (s.reg16 .ax) (s.rm8 e) (divU 8 (s.reg16 .ax).toNat (s.rm8 e).toNat)

/-- DIV of width 16 (R274). -/
def State.div16 (s : State) (i : Instr) (e : Rm16) : State :=
  (s.fetchDiv16 e).divWrite16 i .div s.dxax (s.rm16 e) (divU 16 s.dxax.toNat (s.rm16 e).toNat)

/-- IDIV of width 8 (R275). -/
def State.idiv8 (s : State) (i : Instr) (e : Rm8) : State :=
  (s.fetchDiv8 e).divWrite8 i .idiv (s.reg16 .ax) (s.rm8 e)
    (divS s.cfg.idivMinOk 8 (s.reg16 .ax).toInt (s.rm8 e).toInt)

/-- IDIV of width 16 (R275). -/
def State.idiv16 (s : State) (i : Instr) (e : Rm16) : State :=
  (s.fetchDiv16 e).divWrite16 i .idiv s.dxax (s.rm16 e) (divS s.cfg.idivMinOk 16 s.dxax.toInt (s.rm16 e).toInt)

/-- DAA and DAS: `f` computes AL, CF and AF (R276, R277). -/
def State.decimalAdjust (s : State) (op : Config.UndefOp) (f : Byte → Bool → Bool → Byte × Bool × Bool) : State :=
  let al := s.reg8 .al
  let r := f al (s.flag .cf) (s.flag .af)
  ((s.note8 .al).setReg8 .al r.1).setFlags (decimalFlags op al r s.flags)

/-- AAA and AAS: `f` computes AX; AH is read and written only where AL is adjusted (R278, R279). -/
def State.asciiAdjust (s : State) (op : Config.UndefOp) (f : Bool → Word → Bool → Word) : State :=
  let ax := s.reg16 .ax
  let adj := asciiAdjusts (s.reg8 .al) (s.flag .af)
  let v := f s.cfg.aaaCarryIntoAh ax (s.flag .af)
  let s1 := if adj then (s.note16 .ax).setReg16 .ax v else (s.note8 .al).setReg8 .al (loByte v)
  s1.setFlags (asciiFlags op ax adj s.flags)

/-- The base of AAM and AAD (R280, R281, D10). -/
def State.aamdBase (s : State) (i : Byte) : Byte := if s.cfg.aamdUseImm then i else 10#8

/-- The new AX of AAM (R280). -/
def aamRes (al base : Byte) : Word :=
  (BitVec.ofNat 8 (al.toNat / base.toNat) : Byte) ++ (BitVec.ofNat 8 (al.toNat % base.toNat) : Byte)

/-- The new AL of AAD (R281). -/
def aadRes (ax : Word) (base : Byte) : Byte := BitVec.ofNat 8 ((loByte ax).toNat + (hiByte ax).toNat * base.toNat)

/-! ## Shifts and rotates -/

/-- The effective count (R326, D7). -/
def State.shiftCount (s : State) (raw : Byte) : Nat := (raw &&& s.cfg.shiftCountMask).toNat

/-- A shift of E of width 8 by the raw count, from the state after its operand reads (R326-R333). -/
def State.shift8 (s : State) (op : ShiftOp) (e : Rm8) (raw : Byte) : State :=
  let x := s.rm8 e
  let n := s.shiftCount raw
  let s1 := s.fetch8 e
  if n = 0 then s1
  else (s1.setFlags (shiftFlags op x n s.flags)).write8 (s.loc8 e) (shiftRes op x n s.flags)

/-- A shift of E of width 16 by the raw count. -/
def State.shift16 (s : State) (op : ShiftOp) (e : Rm16) (raw : Byte) : State :=
  let x := s.rm16 e
  let n := s.shiftCount raw
  let s1 := s.fetch16 e
  if n = 0 then s1
  else (s1.setFlags (shiftFlags op x n s.flags)).write16 (s.loc16 e) (shiftRes op x n s.flags)

/-! ## Strings (43_string.md) -/

/-- The step of an index register for elements of `n` bytes (R360). -/
def State.delta (s : State) (n : Word) : Word := if s.flag .df then 0#16 - n else n

/-- Moves an index register by one element, after reading it (R360). -/
def State.bump (s : State) (r : Reg16) (n : Word) : State := s.setReg16 r (s.reg16 r + s.delta n)

/-- The source segment of a string instruction (R360). -/
def State.srcSeg (s : State) : Word := s.segOr .ds

/-- The state after reading the source element of width 8. -/
def State.noteSrcElem8 (s : State) : State := (s.note16 .si).noteMem8 s.srcSeg (s.reg16 .si)

/-- The state after reading the source element of width 16. -/
def State.noteSrcElem16 (s : State) : State := (s.note16 .si).noteMem16 s.srcSeg (s.reg16 .si)

/-- The source element of width 8. -/
def State.srcElem8 (s : State) : Byte := s.mem8 s.srcSeg (s.reg16 .si)

/-- The source element of width 16. -/
def State.srcElem16 (s : State) : Word := s.mem16 s.srcSeg (s.reg16 .si)

/-- The destination element of width 8. -/
def State.dstElem8 (s : State) : Byte := s.mem8 s.segs.es (s.reg16 .di)

/-- The destination element of width 16. -/
def State.dstElem16 (s : State) : Word := s.mem16 s.segs.es (s.reg16 .di)

/-- The state after reading the destination element of width 8. -/
def State.noteDstElem8 (s : State) : State := (s.note16 .di).noteMem8 s.segs.es (s.reg16 .di)

/-- The state after reading the destination element of width 16. -/
def State.noteDstElem16 (s : State) : State := (s.note16 .di).noteMem16 s.segs.es (s.reg16 .di)

/-- Stores the destination element of width 8. -/
def State.putDst8 (s : State) (v : Byte) : State := (s.note16 .di).writeMem8 s.segs.es (s.reg16 .di) v

/-- Stores the destination element of width 16. -/
def State.putDst16 (s : State) (v : Word) : State := (s.note16 .di).writeMem16 s.segs.es (s.reg16 .di) v

/-- One element of MOVSB (R362). -/
def State.movsElem8 (s : State) : State := ((s.noteSrcElem8.putDst8 s.srcElem8).bump .si 1#16).bump .di 1#16

/-- One element of MOVSW (R362). -/
def State.movsElem16 (s : State) : State := ((s.noteSrcElem16.putDst16 s.srcElem16).bump .si 2#16).bump .di 2#16

/-- One element of CMPSB (R363). -/
def State.cmpsElem8 (s : State) : State :=
  ((s.noteSrcElem8.noteDstElem8.setFlags (subFlags s.srcElem8 s.dstElem8 false s.flags)).bump .si 1#16).bump .di 1#16

/-- One element of CMPSW (R363). -/
def State.cmpsElem16 (s : State) : State :=
  ((s.noteSrcElem16.noteDstElem16.setFlags (subFlags s.srcElem16 s.dstElem16 false s.flags)).bump .si 2#16).bump .di
    2#16

/-- One element of SCASB (R364). -/
def State.scasElem8 (s : State) : State :=
  ((s.noteDstElem8.note8 .al).setFlags (subFlags (s.reg8 .al) s.dstElem8 false s.flags)).bump .di 1#16

/-- One element of SCASW (R364). -/
def State.scasElem16 (s : State) : State :=
  ((s.noteDstElem16.note16 .ax).setFlags (subFlags (s.reg16 .ax) s.dstElem16 false s.flags)).bump .di 2#16

/-- One element of LODSB (R365). -/
def State.lodsElem8 (s : State) : State := (s.noteSrcElem8.setReg8 .al s.srcElem8).bump .si 1#16

/-- One element of LODSW (R365). -/
def State.lodsElem16 (s : State) : State := (s.noteSrcElem16.setReg16 .ax s.srcElem16).bump .si 2#16

/-- One element of STOSB (R366). -/
def State.stosElem8 (s : State) : State := ((s.note8 .al).putDst8 (s.reg8 .al)).bump .di 1#16

/-- One element of STOSW (R366). -/
def State.stosElem16 (s : State) : State := ((s.note16 .ax).putDst16 (s.reg16 .ax)).bump .di 2#16

/-- One element of INSB (R367). -/
def State.insElem8 (s : State) : State := ((s.note16 .dx).putDst8 (s.portRead8 (s.reg16 .dx))).bump .di 1#16

/-- One element of INSW (R367). -/
def State.insElem16 (s : State) : State := ((s.note16 .dx).putDst16 (s.portRead16 (s.reg16 .dx))).bump .di 2#16

/-- One element of OUTSB (R368). -/
def State.outsElem8 (s : State) : State :=
  ((s.noteSrcElem8.note16 .dx).portWrite8 (s.reg16 .dx) s.srcElem8).bump .si 1#16

/-- One element of OUTSW (R368). -/
def State.outsElem16 (s : State) : State :=
  ((s.noteSrcElem16.note16 .dx).portWrite16 (s.reg16 .dx) s.srcElem16).bump .si 2#16

/-- `Terminates` of MOVS, LODS, STOS, INS and OUTS: never by a flag (R369). -/
def neverStops (_ : RepKind) (_ : Word) : Bool := false

/-- `Terminates` of CMPS and SCAS: REPE stops at ZF = 0, REPNE at ZF = 1 (R369). -/
def zfStops (k : RepKind) (fl : Word) : Bool :=
  match k with
  | .rep => !flagGet fl .zf
  | .repne => flagGet fl .zf

/-- `StringStep` (R361): one element, or one iteration under a repeat prefix.  An iteration that does
not end the instruction leaves IP on its first prefix byte. -/
def State.stringStep (s : State) (i : Instr) (elem : State → State) (stops : RepKind → Word → Bool) : State :=
  match s.cur.rep with
  | none => (elem s).advance i
  | some k =>
    if s.reg16 .cx = 0#16 then (s.note16 .cx).advance i
    else
      let s1 := elem (s.note16 .cx)
      let s2 := s1.setReg16 .cx (s1.reg16 .cx - 1#16)
      if s2.reg16 .cx = 0#16 ∨ stops k s2.flags = true then s2.advance i else s2

/-! ## Control transfer -/

/-- `IP <- IP_next + rel` (R390, R391). -/
def State.jumpRel (s : State) (i : Instr) (rel : Word) : State := s.setIp (s.ipNext i + rel)

/-- A branch: taken under the condition, else falling through (R404-R408). -/
def State.branch (s : State) (i : Instr) (taken : Bool) (rel : Byte) : State :=
  if taken then s.jumpRel i (sextByte rel) else s.advance i

/-- LOOP, LOOPZ and LOOPNZ: CX is decremented, then the branch is taken where CX is not 0 and `cond`
holds (R405-R407). -/
def State.loop (s : State) (i : Instr) (cond : Bool) (rel : Byte) : State :=
  let cx := s.reg16 .cx - 1#16
  ((s.note16 .cx).setReg16 .cx cx).branch i (decide (cx ≠ 0#16) && cond) rel

/-- The far pointer at a memory operand: its segment word (R394, R398). -/
def State.farSel (s : State) (m : Mem) : Word := s.mem16 (s.eaSeg m) (s.eaOff m + 2#16)

/-- The far pointer at a memory operand: its offset word (R394, R398). -/
def State.farOff (s : State) (m : Mem) : Word := s.mem16 (s.eaSeg m) (s.eaOff m)

/-- The state after reading a far pointer at a memory operand. -/
def State.noteFar (s : State) (m : Mem) : State :=
  ((s.noteEa m).noteMem16 (s.eaSeg m) (s.eaOff m)).noteMem16 (s.eaSeg m) (s.eaOff m + 2#16)

/-- A far call: CS and `IP_next` are pushed, then control transfers (R396, R398). -/
def State.callFar (s : State) (i : Instr) (sel off : Word) : State :=
  ((s.push s.segs.cs).push (s.ipNext i)).setCsIp sel off

/-- The display copies of ENTER (R409). -/
def State.copyDisplay (s : State) : Nat → State
  | 0 => s
  | n + 1 =>
    let bp := s.reg16 .bp - 2#16
    let s1 := (s.note16 .bp).setReg16 .bp bp
    ((s1.noteMem16 s1.segs.ss bp).push (s1.mem16 s1.segs.ss bp)).copyDisplay n

/-- ENTER with its level already masked (R409). -/
def State.enterFrame (s : State) (size : Word) (level : Nat) : State :=
  let s1 := s.pushReg .bp
  let frame := s1.reg16 .sp
  let s2 := if level = 0 then s1 else (s1.copyDisplay (level - 1)).push frame
  let s3 := s2.setReg16 .bp frame
  s3.setReg16 .sp (s3.reg16 .sp - size)

/-- LEAVE (R410). -/
def State.leaveFrame (s : State) : State := ((s.note16 .bp).setReg16 .sp (s.reg16 .bp)).popReg .bp

/-- Whether a BOUND index is outside its bounds, signed (R411). -/
def boundExceeded (x lo hi : Word) : Bool := decide (x.toInt < lo.toInt) || decide (hi.toInt < x.toInt)

/-! ## Prefixes -/

/-- Records a prefix byte in the step's decode state (R152). -/
def State.setCur (s : State) (c : StepCtx) : State := { s with cur := c }

/-- A segment override prefix: the last one wins (R152, R455). -/
def State.prefixSeg (s : State) (r : SReg) : State :=
  s.setCur { s.cur with segOvr := some r, pfxLen := s.cur.pfxLen + 1 }

/-- A repeat prefix: the last one wins (R152, R456). -/
def State.prefixRep (s : State) (k : RepKind) : State :=
  s.setCur { s.cur with rep := some k, pfxLen := s.cur.pfxLen + 1 }

/-- The LOCK prefix: a mark with no effect (R152, R458). -/
def State.prefixLock (s : State) : State := s.setCur { s.cur with lock := true, pfxLen := s.cur.pfxLen + 1 }

end Sys2Proof.Machine
end

