-- ==== Sys2Proof/Machine/Arithmetic.lean ====
section
/-! DEFINITION. The meanings of the arithmetic instructions (41_arithmetic.md): one definition per constructor
of `Instr`, over the shared operations of Machine/Patterns.lean. -/

namespace Sys2Proof.Machine

/-- ADD_Eb_Gb (R261). -/
def execAddEbGb (e : Rm8) (g : Reg8) (s : State) : Result :=
  .next ((s.alu8 .add e (.rm (.reg g))).advance (.addEbGb e g))

/-- ADD_Ev_Gv (R261). -/
def execAddEvGv (e : Rm16) (g : Reg16) (s : State) : Result :=
  .next ((s.alu16 .add e (.rm (.reg g))).advance (.addEvGv e g))

/-- ADD_Gb_Eb (R261). -/
def execAddGbEb (g : Reg8) (e : Rm8) (s : State) : Result :=
  .next ((s.alu8 .add (.reg g) (.rm e)).advance (.addGbEb g e))

/-- ADD_Gv_Ev (R261). -/
def execAddGvEv (g : Reg16) (e : Rm16) (s : State) : Result :=
  .next ((s.alu16 .add (.reg g) (.rm e)).advance (.addGvEv g e))

/-- ADD_AL_Ib (R261). -/
def execAddAlIb (i : Byte) (s : State) : Result := .next ((s.alu8 .add (.reg .al) (.imm i)).advance (.addAlIb i))

/-- ADD_AX_Iw (R261). -/
def execAddAxIw (i : Word) (s : State) : Result := .next ((s.alu16 .add (.reg .ax) (.imm i)).advance (.addAxIw i))

/-- ADD_Eb_Ib (R261). -/
def execAddEbIb (e : Rm8) (i : Byte) (s : State) : Result := .next ((s.alu8 .add e (.imm i)).advance (.addEbIb e i))

/-- ADD_Ev_Iw (R261). -/
def execAddEvIw (e : Rm16) (i : Word) (s : State) : Result :=
  .next ((s.alu16 .add e (.imm i)).advance (.addEvIw e i))

/-- ADD_Eb_Ib__alias_of_80 (R261). -/
def execAddEbIbAlias (e : Rm8) (i : Byte) (s : State) : Result :=
  .next ((s.alu8 .add e (.imm i)).advance (.addEbIbAlias e i))

/-- ADD_Ev_Ibs (R261). -/
def execAddEvIbs (e : Rm16) (i : Byte) (s : State) : Result :=
  .next ((s.alu16 .add e (.imm (sextByte i))).advance (.addEvIbs e i))

/-- ADC_Eb_Gb (R262). -/
def execAdcEbGb (e : Rm8) (g : Reg8) (s : State) : Result :=
  .next ((s.alu8 .adc e (.rm (.reg g))).advance (.adcEbGb e g))

/-- ADC_Ev_Gv (R262). -/
def execAdcEvGv (e : Rm16) (g : Reg16) (s : State) : Result :=
  .next ((s.alu16 .adc e (.rm (.reg g))).advance (.adcEvGv e g))

/-- ADC_Gb_Eb (R262). -/
def execAdcGbEb (g : Reg8) (e : Rm8) (s : State) : Result :=
  .next ((s.alu8 .adc (.reg g) (.rm e)).advance (.adcGbEb g e))

/-- ADC_Gv_Ev (R262). -/
def execAdcGvEv (g : Reg16) (e : Rm16) (s : State) : Result :=
  .next ((s.alu16 .adc (.reg g) (.rm e)).advance (.adcGvEv g e))

/-- ADC_AL_Ib (R262). -/
def execAdcAlIb (i : Byte) (s : State) : Result := .next ((s.alu8 .adc (.reg .al) (.imm i)).advance (.adcAlIb i))

/-- ADC_AX_Iw (R262). -/
def execAdcAxIw (i : Word) (s : State) : Result := .next ((s.alu16 .adc (.reg .ax) (.imm i)).advance (.adcAxIw i))

/-- ADC_Eb_Ib (R262). -/
def execAdcEbIb (e : Rm8) (i : Byte) (s : State) : Result := .next ((s.alu8 .adc e (.imm i)).advance (.adcEbIb e i))

/-- ADC_Ev_Iw (R262). -/
def execAdcEvIw (e : Rm16) (i : Word) (s : State) : Result :=
  .next ((s.alu16 .adc e (.imm i)).advance (.adcEvIw e i))

/-- ADC_Eb_Ib__alias_of_80 (R262). -/
def execAdcEbIbAlias (e : Rm8) (i : Byte) (s : State) : Result :=
  .next ((s.alu8 .adc e (.imm i)).advance (.adcEbIbAlias e i))

/-- ADC_Ev_Ibs (R262). -/
def execAdcEvIbs (e : Rm16) (i : Byte) (s : State) : Result :=
  .next ((s.alu16 .adc e (.imm (sextByte i))).advance (.adcEvIbs e i))

/-- SBB_Eb_Gb (R264). -/
def execSbbEbGb (e : Rm8) (g : Reg8) (s : State) : Result :=
  .next ((s.alu8 .sbb e (.rm (.reg g))).advance (.sbbEbGb e g))

/-- SBB_Ev_Gv (R264). -/
def execSbbEvGv (e : Rm16) (g : Reg16) (s : State) : Result :=
  .next ((s.alu16 .sbb e (.rm (.reg g))).advance (.sbbEvGv e g))

/-- SBB_Gb_Eb (R264). -/
def execSbbGbEb (g : Reg8) (e : Rm8) (s : State) : Result :=
  .next ((s.alu8 .sbb (.reg g) (.rm e)).advance (.sbbGbEb g e))

/-- SBB_Gv_Ev (R264). -/
def execSbbGvEv (g : Reg16) (e : Rm16) (s : State) : Result :=
  .next ((s.alu16 .sbb (.reg g) (.rm e)).advance (.sbbGvEv g e))

/-- SBB_AL_Ib (R264). -/
def execSbbAlIb (i : Byte) (s : State) : Result := .next ((s.alu8 .sbb (.reg .al) (.imm i)).advance (.sbbAlIb i))

/-- SBB_AX_Iw (R264). -/
def execSbbAxIw (i : Word) (s : State) : Result := .next ((s.alu16 .sbb (.reg .ax) (.imm i)).advance (.sbbAxIw i))

/-- SBB_Eb_Ib (R264). -/
def execSbbEbIb (e : Rm8) (i : Byte) (s : State) : Result := .next ((s.alu8 .sbb e (.imm i)).advance (.sbbEbIb e i))

/-- SBB_Ev_Iw (R264). -/
def execSbbEvIw (e : Rm16) (i : Word) (s : State) : Result :=
  .next ((s.alu16 .sbb e (.imm i)).advance (.sbbEvIw e i))

/-- SBB_Eb_Ib__alias_of_80 (R264). -/
def execSbbEbIbAlias (e : Rm8) (i : Byte) (s : State) : Result :=
  .next ((s.alu8 .sbb e (.imm i)).advance (.sbbEbIbAlias e i))

/-- SBB_Ev_Ibs (R264). -/
def execSbbEvIbs (e : Rm16) (i : Byte) (s : State) : Result :=
  .next ((s.alu16 .sbb e (.imm (sextByte i))).advance (.sbbEvIbs e i))

/-- SUB_Eb_Gb (R263). -/
def execSubEbGb (e : Rm8) (g : Reg8) (s : State) : Result :=
  .next ((s.alu8 .sub e (.rm (.reg g))).advance (.subEbGb e g))

/-- SUB_Ev_Gv (R263). -/
def execSubEvGv (e : Rm16) (g : Reg16) (s : State) : Result :=
  .next ((s.alu16 .sub e (.rm (.reg g))).advance (.subEvGv e g))

/-- SUB_Gb_Eb (R263). -/
def execSubGbEb (g : Reg8) (e : Rm8) (s : State) : Result :=
  .next ((s.alu8 .sub (.reg g) (.rm e)).advance (.subGbEb g e))

/-- SUB_Gv_Ev (R263). -/
def execSubGvEv (g : Reg16) (e : Rm16) (s : State) : Result :=
  .next ((s.alu16 .sub (.reg g) (.rm e)).advance (.subGvEv g e))

/-- SUB_AL_Ib (R263). -/
def execSubAlIb (i : Byte) (s : State) : Result := .next ((s.alu8 .sub (.reg .al) (.imm i)).advance (.subAlIb i))

/-- SUB_AX_Iw (R263). -/
def execSubAxIw (i : Word) (s : State) : Result := .next ((s.alu16 .sub (.reg .ax) (.imm i)).advance (.subAxIw i))

/-- SUB_Eb_Ib (R263). -/
def execSubEbIb (e : Rm8) (i : Byte) (s : State) : Result := .next ((s.alu8 .sub e (.imm i)).advance (.subEbIb e i))

/-- SUB_Ev_Iw (R263). -/
def execSubEvIw (e : Rm16) (i : Word) (s : State) : Result :=
  .next ((s.alu16 .sub e (.imm i)).advance (.subEvIw e i))

/-- SUB_Eb_Ib__alias_of_80 (R263). -/
def execSubEbIbAlias (e : Rm8) (i : Byte) (s : State) : Result :=
  .next ((s.alu8 .sub e (.imm i)).advance (.subEbIbAlias e i))

/-- SUB_Ev_Ibs (R263). -/
def execSubEvIbs (e : Rm16) (i : Byte) (s : State) : Result :=
  .next ((s.alu16 .sub e (.imm (sextByte i))).advance (.subEvIbs e i))

/-- CMP_Eb_Gb (R265). -/
def execCmpEbGb (e : Rm8) (g : Reg8) (s : State) : Result :=
  .next ((s.alu8 .cmp e (.rm (.reg g))).advance (.cmpEbGb e g))

/-- CMP_Ev_Gv (R265). -/
def execCmpEvGv (e : Rm16) (g : Reg16) (s : State) : Result :=
  .next ((s.alu16 .cmp e (.rm (.reg g))).advance (.cmpEvGv e g))

/-- CMP_Gb_Eb (R265). -/
def execCmpGbEb (g : Reg8) (e : Rm8) (s : State) : Result :=
  .next ((s.alu8 .cmp (.reg g) (.rm e)).advance (.cmpGbEb g e))

/-- CMP_Gv_Ev (R265). -/
def execCmpGvEv (g : Reg16) (e : Rm16) (s : State) : Result :=
  .next ((s.alu16 .cmp (.reg g) (.rm e)).advance (.cmpGvEv g e))

/-- CMP_AL_Ib (R265). -/
def execCmpAlIb (i : Byte) (s : State) : Result := .next ((s.alu8 .cmp (.reg .al) (.imm i)).advance (.cmpAlIb i))

/-- CMP_AX_Iw (R265). -/
def execCmpAxIw (i : Word) (s : State) : Result := .next ((s.alu16 .cmp (.reg .ax) (.imm i)).advance (.cmpAxIw i))

/-- CMP_Eb_Ib (R265). -/
def execCmpEbIb (e : Rm8) (i : Byte) (s : State) : Result := .next ((s.alu8 .cmp e (.imm i)).advance (.cmpEbIb e i))

/-- CMP_Ev_Iw (R265). -/
def execCmpEvIw (e : Rm16) (i : Word) (s : State) : Result :=
  .next ((s.alu16 .cmp e (.imm i)).advance (.cmpEvIw e i))

/-- CMP_Eb_Ib__alias_of_80 (R265). -/
def execCmpEbIbAlias (e : Rm8) (i : Byte) (s : State) : Result :=
  .next ((s.alu8 .cmp e (.imm i)).advance (.cmpEbIbAlias e i))

/-- CMP_Ev_Ibs (R265). -/
def execCmpEvIbs (e : Rm16) (i : Byte) (s : State) : Result :=
  .next ((s.alu16 .cmp e (.imm (sextByte i))).advance (.cmpEvIbs e i))

/-- INC_r16 (R266). -/
def execIncR16 (r : Reg16) (s : State) : Result := .next ((s.inc16 (.reg r)).advance (.incR16 r))

/-- DEC_r16 (R268). -/
def execDecR16 (r : Reg16) (s : State) : Result := .next ((s.dec16 (.reg r)).advance (.decR16 r))

/-- IMUL_Gv_Ev_Iw (R273). -/
def execImulGvEvIw (g : Reg16) (e : Rm16) (i : Word) (s : State) : Result :=
  .next ((s.imul3 g e i).advance (.imulGvEvIw g e i))

/-- IMUL_Gv_Ev_Ibs (R273). -/
def execImulGvEvIbs (g : Reg16) (e : Rm16) (i : Byte) (s : State) : Result :=
  .next ((s.imul3 g e (sextByte i)).advance (.imulGvEvIbs g e i))

/-- AAM (R280): the divide error where the base is 0. -/
def execAamIb (i : Byte) (s : State) : Result :=
  let base := s.aamdBase i
  if base = 0#8 then .next (s.divError (.aamIb i))
  else
    let ax := aamRes (s.reg8 .al) base
    .next ((((s.note8 .al).setReg16 .ax ax).setFlags (aamdFlags .aam (s.reg16 .ax) base (loByte ax) s.flags)).advance (.aamIb i))

/-- AAD_Ib (R281). -/
def execAadIb (i : Byte) (s : State) : Result :=
  let base := s.aamdBase i
  let al := aadRes (s.reg16 .ax) base
  .next ((((s.note16 .ax).setReg16 .ax (0x00#8 ++ al)).setFlags (aamdFlags .aad (s.reg16 .ax) base al s.flags)).advance (.aadIb i))

/-- NEG_Eb (R270). -/
def execNegEb (e : Rm8) (s : State) : Result := .next ((s.neg8 e).advance (.negEb e))

/-- NEG_Ev (R270). -/
def execNegEv (e : Rm16) (s : State) : Result := .next ((s.neg16 e).advance (.negEv e))

/-- MUL_Eb (R271). -/
def execMulEb (e : Rm8) (s : State) : Result := .next ((s.mul8 e).advance (.mulEb e))

/-- MUL_Ev (R271). -/
def execMulEv (e : Rm16) (s : State) : Result := .next ((s.mul16 e).advance (.mulEv e))

/-- IMUL_Eb (R272). -/
def execImulEb (e : Rm8) (s : State) : Result := .next ((s.imul8 e).advance (.imulEb e))

/-- IMUL_Ev (R272). -/
def execImulEv (e : Rm16) (s : State) : Result := .next ((s.imul16 e).advance (.imulEv e))

/-- DIV_Eb (R274). -/
def execDivEb (e : Rm8) (s : State) : Result := .next (s.div8 (.divEb e) e)

/-- DIV_Ev (R274). -/
def execDivEv (e : Rm16) (s : State) : Result := .next (s.div16 (.divEv e) e)

/-- IDIV_Eb (R275). -/
def execIdivEb (e : Rm8) (s : State) : Result := .next (s.idiv8 (.idivEb e) e)

/-- IDIV_Ev (R275). -/
def execIdivEv (e : Rm16) (s : State) : Result := .next (s.idiv16 (.idivEv e) e)

/-- INC_Eb (R267). -/
def execIncEb (e : Rm8) (s : State) : Result := .next ((s.inc8 e).advance (.incEb e))

/-- DEC_Eb (R269). -/
def execDecEb (e : Rm8) (s : State) : Result := .next ((s.dec8 e).advance (.decEb e))

/-- INC_Ev (R267). -/
def execIncEv (e : Rm16) (s : State) : Result := .next ((s.inc16 e).advance (.incEv e))

/-- DEC_Ev (R269). -/
def execDecEv (e : Rm16) (s : State) : Result := .next ((s.dec16 e).advance (.decEv e))

/-- DAA (R276). -/
def execDaa (s : State) : Result := .next ((s.decimalAdjust .daa daaRes).advance .daa)

/-- DAS (R277). -/
def execDas (s : State) : Result := .next ((s.decimalAdjust .das dasRes).advance .das)

/-- AAA (R278). -/
def execAaa (s : State) : Result := .next ((s.asciiAdjust .aaa aaaRes).advance .aaa)

/-- AAS (R279). -/
def execAas (s : State) : Result := .next ((s.asciiAdjust .aas aasRes).advance .aas)

/-- CBW (R282). -/
def execCbw (s : State) : Result := .next (((s.note8 .al).setReg16 .ax (sextByte (s.reg8 .al))).advance .cbw)

/-- CWD (R283). -/
def execCwd (s : State) : Result :=
  .next (((s.note16 .ax).setReg16 .dx (if (s.reg16 .ax).msb then 0xFFFF#16 else 0x0000#16)).advance .cwd)

end Sys2Proof.Machine
end

