-- ==== Sys2Proof/Machine/Control.lean ====
section
/-! DEFINITION. The meanings of the control transfer instructions (44_control_transfer.md): one definition per constructor
of `Instr`, over the shared operations of Machine/Patterns.lean. -/

namespace Sys2Proof.Machine

/-- BOUND (R411): vector 5 with the address of the instruction itself where the index is out of bounds. -/
def execBoundGvMa (g : Reg16) (m : Mem) (s : State) : Result :=
  let s1 := (s.noteFar m).note16 g
  if boundExceeded (s.reg16 g) (s.farOff m) (s.farSel m) then .next (s1.enter 5#8 s.ip)
  else .next (s1.advance (.boundGvMa g m))

/-- JO_rel8 (R404). -/
def execJoRel8 (rel : Byte) (s : State) : Result := .next (s.branch (.joRel8 rel) (condHolds .o s.flags) rel)

/-- JNO_rel8 (R404). -/
def execJnoRel8 (rel : Byte) (s : State) : Result := .next (s.branch (.jnoRel8 rel) (condHolds .no s.flags) rel)

/-- JB_rel8 (R404). -/
def execJbRel8 (rel : Byte) (s : State) : Result := .next (s.branch (.jbRel8 rel) (condHolds .b s.flags) rel)

/-- JNB_rel8 (R404). -/
def execJnbRel8 (rel : Byte) (s : State) : Result := .next (s.branch (.jnbRel8 rel) (condHolds .nb s.flags) rel)

/-- JZ_rel8 (R404). -/
def execJzRel8 (rel : Byte) (s : State) : Result := .next (s.branch (.jzRel8 rel) (condHolds .z s.flags) rel)

/-- JNZ_rel8 (R404). -/
def execJnzRel8 (rel : Byte) (s : State) : Result := .next (s.branch (.jnzRel8 rel) (condHolds .nz s.flags) rel)

/-- JBE_rel8 (R404). -/
def execJbeRel8 (rel : Byte) (s : State) : Result := .next (s.branch (.jbeRel8 rel) (condHolds .be s.flags) rel)

/-- JA_rel8 (R404). -/
def execJaRel8 (rel : Byte) (s : State) : Result := .next (s.branch (.jaRel8 rel) (condHolds .a s.flags) rel)

/-- JS_rel8 (R404). -/
def execJsRel8 (rel : Byte) (s : State) : Result := .next (s.branch (.jsRel8 rel) (condHolds .s s.flags) rel)

/-- JNS_rel8 (R404). -/
def execJnsRel8 (rel : Byte) (s : State) : Result := .next (s.branch (.jnsRel8 rel) (condHolds .ns s.flags) rel)

/-- JP_rel8 (R404). -/
def execJpRel8 (rel : Byte) (s : State) : Result := .next (s.branch (.jpRel8 rel) (condHolds .p s.flags) rel)

/-- JNP_rel8 (R404). -/
def execJnpRel8 (rel : Byte) (s : State) : Result := .next (s.branch (.jnpRel8 rel) (condHolds .np s.flags) rel)

/-- JL_rel8 (R404). -/
def execJlRel8 (rel : Byte) (s : State) : Result := .next (s.branch (.jlRel8 rel) (condHolds .l s.flags) rel)

/-- JGE_rel8 (R404). -/
def execJgeRel8 (rel : Byte) (s : State) : Result := .next (s.branch (.jgeRel8 rel) (condHolds .ge s.flags) rel)

/-- JLE_rel8 (R404). -/
def execJleRel8 (rel : Byte) (s : State) : Result := .next (s.branch (.jleRel8 rel) (condHolds .le s.flags) rel)

/-- JG_rel8 (R404). -/
def execJgRel8 (rel : Byte) (s : State) : Result := .next (s.branch (.jgRel8 rel) (condHolds .g s.flags) rel)

/-- CALL_Ap__far_direct (R396). -/
def execCallAp (off : Word) (sg : Word) (s : State) : Result := .next (s.callFar (.callAp off sg) sg off)

/-- RET_Iw__near (R400). -/
def execRetIw (i : Word) (s : State) : Result :=
  let s1 := s.drop
  .next ((s1.setReg16 .sp (s1.reg16 .sp + i)).setIp s.top)

/-- ENTER_Iw_Ib (R409). -/
def execEnterIwIb (size : Word) (level : Byte) (s : State) : Result :=
  .next ((s.enterFrame size (level &&& 0x1F#8).toNat).advance (.enterIwIb size level))

/-- RETF_Iw (R402). -/
def execRetfIw (i : Word) (s : State) : Result :=
  let s1 := s.drop.drop
  .next ((s1.setReg16 .sp (s1.reg16 .sp + i)).setCsIp s.drop.top s.top)

/-- INT_Ib (R425). -/
def execIntIb (n : Byte) (s : State) : Result := .next (s.enter n (s.ipNext (.intIb n)))

/-- LOOPNZ_LOOPNE_rel8 (R407). -/
def execLoopnzRel8 (rel : Byte) (s : State) : Result := .next (s.loop (.loopnzRel8 rel) (!s.flag .zf) rel)

/-- LOOPZ_LOOPE_rel8 (R406). -/
def execLoopzRel8 (rel : Byte) (s : State) : Result := .next (s.loop (.loopzRel8 rel) (s.flag .zf) rel)

/-- LOOP_rel8 (R405). -/
def execLoopRel8 (rel : Byte) (s : State) : Result := .next (s.loop (.loopRel8 rel) true rel)

/-- JCXZ_rel8 (R408). -/
def execJcxzRel8 (rel : Byte) (s : State) : Result :=
  .next ((s.note16 .cx).branch (.jcxzRel8 rel) (decide (s.reg16 .cx = 0#16)) rel)

/-- CALL_rel16 (R395). -/
def execCallRel16 (rel : Word) (s : State) : Result :=
  .next ((s.push (s.ipNext (.callRel16 rel))).setIp (s.ipNext (.callRel16 rel) + rel))

/-- JMP_rel16 (R391). -/
def execJmpRel16 (rel : Word) (s : State) : Result := .next (s.jumpRel (.jmpRel16 rel) rel)

/-- JMP_Ap__far_direct (R392). -/
def execJmpAp (off : Word) (sg : Word) (s : State) : Result := .next (s.setCsIp sg off)

/-- JMP_rel8 (R390). -/
def execJmpRel8 (rel : Byte) (s : State) : Result := .next (s.jumpRel (.jmpRel8 rel) (sextByte rel))

/-- CALL_Ev__near_indirect (R397). -/
def execCallEv (e : Rm16) (s : State) : Result :=
  .next (((s.fetch16 e).push (s.ipNext (.callEv e))).setIp (s.rm16 e))

/-- CALL_Mp__far_indirect (R398). -/
def execCallMp (m : Mem) (s : State) : Result := .next ((s.noteFar m).callFar (.callMp m) (s.farSel m) (s.farOff m))

/-- JMP_Ev__near_indirect (R393). -/
def execJmpEv (e : Rm16) (s : State) : Result := .next ((s.fetch16 e).setIp (s.rm16 e))

/-- JMP_Mp__far_indirect (R394). -/
def execJmpMp (m : Mem) (s : State) : Result := .next ((s.noteFar m).setCsIp (s.farSel m) (s.farOff m))

/-- RET__near (R399). -/
def execRet (s : State) : Result := .next (s.drop.setIp s.top)

/-- LEAVE (R410). -/
def execLeave (s : State) : Result := .next (s.leaveFrame.advance .leave)

/-- RETF (R401). -/
def execRetf (s : State) : Result := .next (s.drop.drop.setCsIp s.drop.top s.top)

/-- INT_3 (R428). -/
def execInt3 (s : State) : Result := .next (s.enter 3#8 (s.ipNext .int3))

/-- INTO (R429). -/
def execInto (s : State) : Result := .next (if s.flag .of then s.enter 4#8 (s.ipNext .into) else s.advance .into)

/-- IRET (R430). -/
def execIret (s : State) : Result := .next (s.leaveInterrupt)

end Sys2Proof.Machine
end

