-- ==== Sys2Proof/Machine/DataTransfer.lean ====
section
/-! DEFINITION. The meanings of the data transfer instructions (40_data_transfer.md): one definition per constructor
of `Instr`, over the shared operations of Machine/Patterns.lean. -/

namespace Sys2Proof.Machine

/-- PUSH_r16 (R208). -/
def execPushR16 (r : Reg16) (s : State) : Result := .next ((s.pushGeneral r).advance (.pushR16 r))

/-- POP_r16 (R212). -/
def execPopR16 (r : Reg16) (s : State) : Result := .next ((s.popReg r).advance (.popR16 r))

/-- PUSH_Iw (R211). -/
def execPushIw (i : Word) (s : State) : Result := .next ((s.push i).advance (.pushIw i))

/-- PUSH_Ibs (R211). -/
def execPushIbs (i : Byte) (s : State) : Result := .next ((s.push (sextByte i)).advance (.pushIbs i))

/-- XCHG_Eb_Gb (R217). -/
def execXchgEbGb (e : Rm8) (g : Reg8) (s : State) : Result := .next ((s.xchg8 e g).advance (.xchgEbGb e g))

/-- XCHG_Ev_Gv (R217). -/
def execXchgEvGv (e : Rm16) (g : Reg16) (s : State) : Result := .next ((s.xchg16 e g).advance (.xchgEvGv e g))

/-- MOV_Eb_Gb (R200). -/
def execMovEbGb (e : Rm8) (g : Reg8) (s : State) : Result :=
  .next ((s.mov8 e (.rm (.reg g))).advance (.movEbGb e g))

/-- MOV_Ev_Gv (R200). -/
def execMovEvGv (e : Rm16) (g : Reg16) (s : State) : Result :=
  .next ((s.mov16 e (.rm (.reg g))).advance (.movEvGv e g))

/-- MOV_Gb_Eb (R200). -/
def execMovGbEb (g : Reg8) (e : Rm8) (s : State) : Result :=
  .next ((s.mov8 (.reg g) (.rm e)).advance (.movGbEb g e))

/-- MOV_Gv_Ev (R200). -/
def execMovGvEv (g : Reg16) (e : Rm16) (s : State) : Result :=
  .next ((s.mov16 (.reg g) (.rm e)).advance (.movGvEv g e))

/-- MOV_Ew_ES (R204). -/
def execMovEwEs (e : Rm16) (s : State) : Result := .next ((s.movFromSReg e .es).advance (.movEwEs e))

/-- MOV_Ew_CS (R204). -/
def execMovEwCs (e : Rm16) (s : State) : Result := .next ((s.movFromSReg e .cs).advance (.movEwCs e))

/-- MOV_Ew_SS (R204). -/
def execMovEwSs (e : Rm16) (s : State) : Result := .next ((s.movFromSReg e .ss).advance (.movEwSs e))

/-- MOV_Ew_DS (R204). -/
def execMovEwDs (e : Rm16) (s : State) : Result := .next ((s.movFromSReg e .ds).advance (.movEwDs e))

/-- LEA_Gv_M (R220). -/
def execLeaGvM (g : Reg16) (m : Mem) (s : State) : Result :=
  .next (((s.noteEa m).setReg16 g (s.eaOff m)).advance (.leaGvM g m))

/-- MOV_ES_Ew (R205). -/
def execMovEsEw (e : Rm16) (s : State) : Result := .next ((s.movToSReg .es e).advance (.movEsEw e))

/-- MOV_SS_Ew (R205). -/
def execMovSsEw (e : Rm16) (s : State) : Result := .next (((s.movToSReg .ss e).setShadow).advance (.movSsEw e))

/-- MOV_DS_Ew (R205). -/
def execMovDsEw (e : Rm16) (s : State) : Result := .next ((s.movToSReg .ds e).advance (.movDsEw e))

/-- POP_Ev (R214). -/
def execPopEv (e : Rm16) (s : State) : Result := .next ((s.popRm e).advance (.popEv e))

/-- XCHG_r16_AX (R218). -/
def execXchgR16Ax (r : Reg16) (s : State) : Result := .next ((s.xchg16 (.reg .ax) r).advance (.xchgR16Ax r))

/-- MOV_AL_Ob (R203). -/
def execMovAlOb (o : Word) (s : State) : Result :=
  .next (((s.noteMem8 (s.segOr .ds) o).setReg8 .al (s.mem8 (s.segOr .ds) o)).advance (.movAlOb o))

/-- MOV_AX_Ow (R203). -/
def execMovAxOw (o : Word) (s : State) : Result :=
  .next (((s.noteMem16 (s.segOr .ds) o).setReg16 .ax (s.mem16 (s.segOr .ds) o)).advance (.movAxOw o))

/-- MOV_Ob_AL (R203). -/
def execMovObAl (o : Word) (s : State) : Result :=
  .next (((s.note8 .al).writeMem8 (s.segOr .ds) o (s.reg8 .al)).advance (.movObAl o))

/-- MOV_Ow_AX (R203). -/
def execMovOwAx (o : Word) (s : State) : Result :=
  .next (((s.note16 .ax).writeMem16 (s.segOr .ds) o (s.reg16 .ax)).advance (.movOwAx o))

/-- MOV_r8_Ib (R201). -/
def execMovR8Ib (r : Reg8) (i : Byte) (s : State) : Result := .next ((s.setReg8 r i).advance (.movR8Ib r i))

/-- MOV_r16_Iw (R201). -/
def execMovR16Iw (r : Reg16) (i : Word) (s : State) : Result := .next ((s.setReg16 r i).advance (.movR16Iw r i))

/-- LES_Gv_Mp (R222). -/
def execLesGvMp (g : Reg16) (m : Mem) (s : State) : Result := .next ((s.loadFar .es g m).advance (.lesGvMp g m))

/-- LDS_Gv_Mp (R221). -/
def execLdsGvMp (g : Reg16) (m : Mem) (s : State) : Result := .next ((s.loadFar .ds g m).advance (.ldsGvMp g m))

/-- MOV_Eb_Ib (R202). -/
def execMovEbIb (e : Rm8) (i : Byte) (s : State) : Result := .next ((s.mov8 e (.imm i)).advance (.movEbIb e i))

/-- MOV_Ev_Iw (R202). -/
def execMovEvIw (e : Rm16) (i : Word) (s : State) : Result := .next ((s.mov16 e (.imm i)).advance (.movEvIw e i))

/-- IN_AL_Ib (R227). -/
def execInAlIb (p : Byte) (s : State) : Result :=
  .next ((s.setReg8 .al (s.portRead8 (zextByte p))).advance (.inAlIb p))

/-- IN_AX_Ib (R227). -/
def execInAxIb (p : Byte) (s : State) : Result :=
  .next ((s.setReg16 .ax (s.portRead16 (zextByte p))).advance (.inAxIb p))

/-- OUT_Ib_AL (R229). -/
def execOutIbAl (p : Byte) (s : State) : Result :=
  .next (((s.note8 .al).portWrite8 (zextByte p) (s.reg8 .al)).advance (.outIbAl p))

/-- OUT_Ib_AX (R229). -/
def execOutIbAx (p : Byte) (s : State) : Result :=
  .next (((s.note16 .ax).portWrite16 (zextByte p) (s.reg16 .ax)).advance (.outIbAx p))

/-- PUSH_Ev (R210). -/
def execPushEv (e : Rm16) (s : State) : Result := .next (((s.fetch16 e).push (s.rm16 e)).advance (.pushEv e))

/-- PUSH_ES (R209). -/
def execPushEs (s : State) : Result := .next ((s.push s.segs.es).advance .pushEs)

/-- PUSH_CS (R209). -/
def execPushCs (s : State) : Result := .next ((s.push s.segs.cs).advance .pushCs)

/-- PUSH_SS (R209). -/
def execPushSs (s : State) : Result := .next ((s.push s.segs.ss).advance .pushSs)

/-- PUSH_DS (R209). -/
def execPushDs (s : State) : Result := .next ((s.push s.segs.ds).advance .pushDs)

/-- POP_ES (R213). -/
def execPopEs (s : State) : Result := .next ((s.popSReg .es).advance .popEs)

/-- POP_SS (R213). -/
def execPopSs (s : State) : Result := .next (((s.popSReg .ss).setShadow).advance .popSs)

/-- POP_DS (R213). -/
def execPopDs (s : State) : Result := .next ((s.popSReg .ds).advance .popDs)

/-- PUSHA (R215). -/
def execPusha (s : State) : Result := .next (s.pushAll.advance .pusha)

/-- POPA (R216). -/
def execPopa (s : State) : Result := .next (s.popAll.advance .popa)

/-- PUSHF (R225). -/
def execPushf (s : State) : Result := .next ((s.push s.flags).advance .pushf)

/-- POPF (R226). -/
def execPopf (s : State) : Result := .next ((s.drop.writeFlags s.top).advance .popf)

/-- SAHF (R224). -/
def execSahf (s : State) : Result := .next (((s.note8 .ah).setFlags (sahfFlags (s.reg8 .ah) s.flags)).advance .sahf)

/-- LAHF (R223). -/
def execLahf (s : State) : Result := .next ((s.setReg8 .ah (loByte s.flags)).advance .lahf)

/-- XLAT (R219). -/
def execXlat (s : State) : Result := .next (s.translate.advance .xlat)

/-- IN_AL_DX (R228). -/
def execInAlDx (s : State) : Result :=
  .next (((s.note16 .dx).setReg8 .al (s.portRead8 (s.reg16 .dx))).advance .inAlDx)

/-- IN_AX_DX (R228). -/
def execInAxDx (s : State) : Result :=
  .next (((s.note16 .dx).setReg16 .ax (s.portRead16 (s.reg16 .dx))).advance .inAxDx)

/-- OUT_DX_AL (R230). -/
def execOutDxAl (s : State) : Result :=
  .next ((((s.note16 .dx).note8 .al).portWrite8 (s.reg16 .dx) (s.reg8 .al)).advance .outDxAl)

/-- OUT_DX_AX (R230). -/
def execOutDxAx (s : State) : Result :=
  .next ((((s.note16 .dx).note16 .ax).portWrite16 (s.reg16 .dx) (s.reg16 .ax)).advance .outDxAx)

end Sys2Proof.Machine
end

