-- ==== Sys2Proof/Machine/LogicShift.lean ====
section
/-! DEFINITION. The meanings of the logic, shift and rotate instructions (42_logic_shift.md): one definition per constructor
of `Instr`, over the shared operations of Machine/Patterns.lean. -/

namespace Sys2Proof.Machine

/-- OR_Eb_Gb (R322). -/
def execOrEbGb (e : Rm8) (g : Reg8) (s : State) : Result :=
  .next ((s.alu8 .or e (.rm (.reg g))).advance (.orEbGb e g))

/-- OR_Ev_Gv (R322). -/
def execOrEvGv (e : Rm16) (g : Reg16) (s : State) : Result :=
  .next ((s.alu16 .or e (.rm (.reg g))).advance (.orEvGv e g))

/-- OR_Gb_Eb (R322). -/
def execOrGbEb (g : Reg8) (e : Rm8) (s : State) : Result :=
  .next ((s.alu8 .or (.reg g) (.rm e)).advance (.orGbEb g e))

/-- OR_Gv_Ev (R322). -/
def execOrGvEv (g : Reg16) (e : Rm16) (s : State) : Result :=
  .next ((s.alu16 .or (.reg g) (.rm e)).advance (.orGvEv g e))

/-- OR_AL_Ib (R322). -/
def execOrAlIb (i : Byte) (s : State) : Result := .next ((s.alu8 .or (.reg .al) (.imm i)).advance (.orAlIb i))

/-- OR_AX_Iw (R322). -/
def execOrAxIw (i : Word) (s : State) : Result := .next ((s.alu16 .or (.reg .ax) (.imm i)).advance (.orAxIw i))

/-- OR_Eb_Ib (R322). -/
def execOrEbIb (e : Rm8) (i : Byte) (s : State) : Result := .next ((s.alu8 .or e (.imm i)).advance (.orEbIb e i))

/-- OR_Ev_Iw (R322). -/
def execOrEvIw (e : Rm16) (i : Word) (s : State) : Result := .next ((s.alu16 .or e (.imm i)).advance (.orEvIw e i))

/-- OR_Eb_Ib__alias_of_80 (R322). -/
def execOrEbIbAlias (e : Rm8) (i : Byte) (s : State) : Result :=
  .next ((s.alu8 .or e (.imm i)).advance (.orEbIbAlias e i))

/-- OR_Ev_Ibs (R322). -/
def execOrEvIbs (e : Rm16) (i : Byte) (s : State) : Result :=
  .next ((s.alu16 .or e (.imm (sextByte i))).advance (.orEvIbs e i))

/-- AND_Eb_Gb (R321). -/
def execAndEbGb (e : Rm8) (g : Reg8) (s : State) : Result :=
  .next ((s.alu8 .and e (.rm (.reg g))).advance (.andEbGb e g))

/-- AND_Ev_Gv (R321). -/
def execAndEvGv (e : Rm16) (g : Reg16) (s : State) : Result :=
  .next ((s.alu16 .and e (.rm (.reg g))).advance (.andEvGv e g))

/-- AND_Gb_Eb (R321). -/
def execAndGbEb (g : Reg8) (e : Rm8) (s : State) : Result :=
  .next ((s.alu8 .and (.reg g) (.rm e)).advance (.andGbEb g e))

/-- AND_Gv_Ev (R321). -/
def execAndGvEv (g : Reg16) (e : Rm16) (s : State) : Result :=
  .next ((s.alu16 .and (.reg g) (.rm e)).advance (.andGvEv g e))

/-- AND_AL_Ib (R321). -/
def execAndAlIb (i : Byte) (s : State) : Result := .next ((s.alu8 .and (.reg .al) (.imm i)).advance (.andAlIb i))

/-- AND_AX_Iw (R321). -/
def execAndAxIw (i : Word) (s : State) : Result := .next ((s.alu16 .and (.reg .ax) (.imm i)).advance (.andAxIw i))

/-- AND_Eb_Ib (R321). -/
def execAndEbIb (e : Rm8) (i : Byte) (s : State) : Result := .next ((s.alu8 .and e (.imm i)).advance (.andEbIb e i))

/-- AND_Ev_Iw (R321). -/
def execAndEvIw (e : Rm16) (i : Word) (s : State) : Result :=
  .next ((s.alu16 .and e (.imm i)).advance (.andEvIw e i))

/-- AND_Eb_Ib__alias_of_80 (R321). -/
def execAndEbIbAlias (e : Rm8) (i : Byte) (s : State) : Result :=
  .next ((s.alu8 .and e (.imm i)).advance (.andEbIbAlias e i))

/-- AND_Ev_Ibs (R321). -/
def execAndEvIbs (e : Rm16) (i : Byte) (s : State) : Result :=
  .next ((s.alu16 .and e (.imm (sextByte i))).advance (.andEvIbs e i))

/-- XOR_Eb_Gb (R323). -/
def execXorEbGb (e : Rm8) (g : Reg8) (s : State) : Result :=
  .next ((s.alu8 .xor e (.rm (.reg g))).advance (.xorEbGb e g))

/-- XOR_Ev_Gv (R323). -/
def execXorEvGv (e : Rm16) (g : Reg16) (s : State) : Result :=
  .next ((s.alu16 .xor e (.rm (.reg g))).advance (.xorEvGv e g))

/-- XOR_Gb_Eb (R323). -/
def execXorGbEb (g : Reg8) (e : Rm8) (s : State) : Result :=
  .next ((s.alu8 .xor (.reg g) (.rm e)).advance (.xorGbEb g e))

/-- XOR_Gv_Ev (R323). -/
def execXorGvEv (g : Reg16) (e : Rm16) (s : State) : Result :=
  .next ((s.alu16 .xor (.reg g) (.rm e)).advance (.xorGvEv g e))

/-- XOR_AL_Ib (R323). -/
def execXorAlIb (i : Byte) (s : State) : Result := .next ((s.alu8 .xor (.reg .al) (.imm i)).advance (.xorAlIb i))

/-- XOR_AX_Iw (R323). -/
def execXorAxIw (i : Word) (s : State) : Result := .next ((s.alu16 .xor (.reg .ax) (.imm i)).advance (.xorAxIw i))

/-- XOR_Eb_Ib (R323). -/
def execXorEbIb (e : Rm8) (i : Byte) (s : State) : Result := .next ((s.alu8 .xor e (.imm i)).advance (.xorEbIb e i))

/-- XOR_Ev_Iw (R323). -/
def execXorEvIw (e : Rm16) (i : Word) (s : State) : Result :=
  .next ((s.alu16 .xor e (.imm i)).advance (.xorEvIw e i))

/-- XOR_Eb_Ib__alias_of_80 (R323). -/
def execXorEbIbAlias (e : Rm8) (i : Byte) (s : State) : Result :=
  .next ((s.alu8 .xor e (.imm i)).advance (.xorEbIbAlias e i))

/-- XOR_Ev_Ibs (R323). -/
def execXorEvIbs (e : Rm16) (i : Byte) (s : State) : Result :=
  .next ((s.alu16 .xor e (.imm (sextByte i))).advance (.xorEvIbs e i))

/-- TEST_Eb_Gb (R324). -/
def execTestEbGb (e : Rm8) (g : Reg8) (s : State) : Result :=
  .next ((s.test8 e (.rm (.reg g))).advance (.testEbGb e g))

/-- TEST_Ev_Gv (R324). -/
def execTestEvGv (e : Rm16) (g : Reg16) (s : State) : Result :=
  .next ((s.test16 e (.rm (.reg g))).advance (.testEvGv e g))

/-- TEST_AL_Ib (R324). -/
def execTestAlIb (i : Byte) (s : State) : Result := .next ((s.test8 (.reg .al) (.imm i)).advance (.testAlIb i))

/-- TEST_AX_Iw (R324). -/
def execTestAxIw (i : Word) (s : State) : Result := .next ((s.test16 (.reg .ax) (.imm i)).advance (.testAxIw i))

/-- ROL_Eb_Ib (R327). -/
def execRolEbIb (e : Rm8) (c : Byte) (s : State) : Result := .next ((s.shift8 .rol e c).advance (.rolEbIb e c))

/-- ROL_Ev_Ib (R327). -/
def execRolEvIb (e : Rm16) (c : Byte) (s : State) : Result := .next ((s.shift16 .rol e c).advance (.rolEvIb e c))

/-- ROL_Eb_1 (R327). -/
def execRolEb1 (e : Rm8) (s : State) : Result := .next ((s.shift8 .rol e 1#8).advance (.rolEb1 e))

/-- ROL_Ev_1 (R327). -/
def execRolEv1 (e : Rm16) (s : State) : Result := .next ((s.shift16 .rol e 1#8).advance (.rolEv1 e))

/-- ROL_Eb_CL (R327). -/
def execRolEbCl (e : Rm8) (s : State) : Result :=
  .next (((s.note8 .cl).shift8 .rol e (s.reg8 .cl)).advance (.rolEbCl e))

/-- ROL_Ev_CL (R327). -/
def execRolEvCl (e : Rm16) (s : State) : Result :=
  .next (((s.note8 .cl).shift16 .rol e (s.reg8 .cl)).advance (.rolEvCl e))

/-- ROR_Eb_Ib (R328). -/
def execRorEbIb (e : Rm8) (c : Byte) (s : State) : Result := .next ((s.shift8 .ror e c).advance (.rorEbIb e c))

/-- ROR_Ev_Ib (R328). -/
def execRorEvIb (e : Rm16) (c : Byte) (s : State) : Result := .next ((s.shift16 .ror e c).advance (.rorEvIb e c))

/-- ROR_Eb_1 (R328). -/
def execRorEb1 (e : Rm8) (s : State) : Result := .next ((s.shift8 .ror e 1#8).advance (.rorEb1 e))

/-- ROR_Ev_1 (R328). -/
def execRorEv1 (e : Rm16) (s : State) : Result := .next ((s.shift16 .ror e 1#8).advance (.rorEv1 e))

/-- ROR_Eb_CL (R328). -/
def execRorEbCl (e : Rm8) (s : State) : Result :=
  .next (((s.note8 .cl).shift8 .ror e (s.reg8 .cl)).advance (.rorEbCl e))

/-- ROR_Ev_CL (R328). -/
def execRorEvCl (e : Rm16) (s : State) : Result :=
  .next (((s.note8 .cl).shift16 .ror e (s.reg8 .cl)).advance (.rorEvCl e))

/-- RCL_Eb_Ib (R329). -/
def execRclEbIb (e : Rm8) (c : Byte) (s : State) : Result := .next ((s.shift8 .rcl e c).advance (.rclEbIb e c))

/-- RCL_Ev_Ib (R329). -/
def execRclEvIb (e : Rm16) (c : Byte) (s : State) : Result := .next ((s.shift16 .rcl e c).advance (.rclEvIb e c))

/-- RCL_Eb_1 (R329). -/
def execRclEb1 (e : Rm8) (s : State) : Result := .next ((s.shift8 .rcl e 1#8).advance (.rclEb1 e))

/-- RCL_Ev_1 (R329). -/
def execRclEv1 (e : Rm16) (s : State) : Result := .next ((s.shift16 .rcl e 1#8).advance (.rclEv1 e))

/-- RCL_Eb_CL (R329). -/
def execRclEbCl (e : Rm8) (s : State) : Result :=
  .next (((s.note8 .cl).shift8 .rcl e (s.reg8 .cl)).advance (.rclEbCl e))

/-- RCL_Ev_CL (R329). -/
def execRclEvCl (e : Rm16) (s : State) : Result :=
  .next (((s.note8 .cl).shift16 .rcl e (s.reg8 .cl)).advance (.rclEvCl e))

/-- RCR_Eb_Ib (R330). -/
def execRcrEbIb (e : Rm8) (c : Byte) (s : State) : Result := .next ((s.shift8 .rcr e c).advance (.rcrEbIb e c))

/-- RCR_Ev_Ib (R330). -/
def execRcrEvIb (e : Rm16) (c : Byte) (s : State) : Result := .next ((s.shift16 .rcr e c).advance (.rcrEvIb e c))

/-- RCR_Eb_1 (R330). -/
def execRcrEb1 (e : Rm8) (s : State) : Result := .next ((s.shift8 .rcr e 1#8).advance (.rcrEb1 e))

/-- RCR_Ev_1 (R330). -/
def execRcrEv1 (e : Rm16) (s : State) : Result := .next ((s.shift16 .rcr e 1#8).advance (.rcrEv1 e))

/-- RCR_Eb_CL (R330). -/
def execRcrEbCl (e : Rm8) (s : State) : Result :=
  .next (((s.note8 .cl).shift8 .rcr e (s.reg8 .cl)).advance (.rcrEbCl e))

/-- RCR_Ev_CL (R330). -/
def execRcrEvCl (e : Rm16) (s : State) : Result :=
  .next (((s.note8 .cl).shift16 .rcr e (s.reg8 .cl)).advance (.rcrEvCl e))

/-- SHL_SAL_Eb_Ib (R331). -/
def execShlEbIb (e : Rm8) (c : Byte) (s : State) : Result := .next ((s.shift8 .shl e c).advance (.shlEbIb e c))

/-- SHL_SAL_Ev_Ib (R331). -/
def execShlEvIb (e : Rm16) (c : Byte) (s : State) : Result := .next ((s.shift16 .shl e c).advance (.shlEvIb e c))

/-- SHL_SAL_Eb_1 (R331). -/
def execShlEb1 (e : Rm8) (s : State) : Result := .next ((s.shift8 .shl e 1#8).advance (.shlEb1 e))

/-- SHL_SAL_Ev_1 (R331). -/
def execShlEv1 (e : Rm16) (s : State) : Result := .next ((s.shift16 .shl e 1#8).advance (.shlEv1 e))

/-- SHL_SAL_Eb_CL (R331). -/
def execShlEbCl (e : Rm8) (s : State) : Result :=
  .next (((s.note8 .cl).shift8 .shl e (s.reg8 .cl)).advance (.shlEbCl e))

/-- SHL_SAL_Ev_CL (R331). -/
def execShlEvCl (e : Rm16) (s : State) : Result :=
  .next (((s.note8 .cl).shift16 .shl e (s.reg8 .cl)).advance (.shlEvCl e))

/-- SHR_Eb_Ib (R332). -/
def execShrEbIb (e : Rm8) (c : Byte) (s : State) : Result := .next ((s.shift8 .shr e c).advance (.shrEbIb e c))

/-- SHR_Ev_Ib (R332). -/
def execShrEvIb (e : Rm16) (c : Byte) (s : State) : Result := .next ((s.shift16 .shr e c).advance (.shrEvIb e c))

/-- SHR_Eb_1 (R332). -/
def execShrEb1 (e : Rm8) (s : State) : Result := .next ((s.shift8 .shr e 1#8).advance (.shrEb1 e))

/-- SHR_Ev_1 (R332). -/
def execShrEv1 (e : Rm16) (s : State) : Result := .next ((s.shift16 .shr e 1#8).advance (.shrEv1 e))

/-- SHR_Eb_CL (R332). -/
def execShrEbCl (e : Rm8) (s : State) : Result :=
  .next (((s.note8 .cl).shift8 .shr e (s.reg8 .cl)).advance (.shrEbCl e))

/-- SHR_Ev_CL (R332). -/
def execShrEvCl (e : Rm16) (s : State) : Result :=
  .next (((s.note8 .cl).shift16 .shr e (s.reg8 .cl)).advance (.shrEvCl e))

/-- SAR_Eb_Ib (R333). -/
def execSarEbIb (e : Rm8) (c : Byte) (s : State) : Result := .next ((s.shift8 .sar e c).advance (.sarEbIb e c))

/-- SAR_Ev_Ib (R333). -/
def execSarEvIb (e : Rm16) (c : Byte) (s : State) : Result := .next ((s.shift16 .sar e c).advance (.sarEvIb e c))

/-- SAR_Eb_1 (R333). -/
def execSarEb1 (e : Rm8) (s : State) : Result := .next ((s.shift8 .sar e 1#8).advance (.sarEb1 e))

/-- SAR_Ev_1 (R333). -/
def execSarEv1 (e : Rm16) (s : State) : Result := .next ((s.shift16 .sar e 1#8).advance (.sarEv1 e))

/-- SAR_Eb_CL (R333). -/
def execSarEbCl (e : Rm8) (s : State) : Result :=
  .next (((s.note8 .cl).shift8 .sar e (s.reg8 .cl)).advance (.sarEbCl e))

/-- SAR_Ev_CL (R333). -/
def execSarEvCl (e : Rm16) (s : State) : Result :=
  .next (((s.note8 .cl).shift16 .sar e (s.reg8 .cl)).advance (.sarEvCl e))

/-- TEST_Eb_Ib (R324). -/
def execTestEbIb (e : Rm8) (i : Byte) (s : State) : Result := .next ((s.test8 e (.imm i)).advance (.testEbIb e i))

/-- TEST_Ev_Iw (R324). -/
def execTestEvIw (e : Rm16) (i : Word) (s : State) : Result := .next ((s.test16 e (.imm i)).advance (.testEvIw e i))

/-- NOT_Eb (R325). -/
def execNotEb (e : Rm8) (s : State) : Result := .next ((s.not8 e).advance (.notEb e))

/-- NOT_Ev (R325). -/
def execNotEv (e : Rm16) (s : State) : Result := .next ((s.not16 e).advance (.notEv e))

end Sys2Proof.Machine
end

