-- ==== Sys2Proof/Machine/Processor.lean ====
section
/-! DEFINITION. The meanings of the flag, processor control and prefix instructions (45_processor_control.md): one definition per constructor
of `Instr`, over the shared operations of Machine/Patterns.lean. -/

namespace Sys2Proof.Machine

/-- ESC_n_Ev (R460). -/
def execEsc (n : BitVec 3) (x : BitVec 3) (e : Rm16) (s : State) : Result := .next (s.advance (.esc n x e))

/-- ES___segment_override_prefix (R455). -/
def execPfxEs (s : State) : Result := .next (s.prefixSeg .es)

/-- CS___segment_override_prefix (R455). -/
def execPfxCs (s : State) : Result := .next (s.prefixSeg .cs)

/-- SS___segment_override_prefix (R455). -/
def execPfxSs (s : State) : Result := .next (s.prefixSeg .ss)

/-- DS___segment_override_prefix (R455). -/
def execPfxDs (s : State) : Result := .next (s.prefixSeg .ds)

/-- LOCK__prefix (R458). -/
def execPfxLock (s : State) : Result := .next (s.prefixLock)

/-- REPNE_REPNZ__prefix (R456). -/
def execPfxRepne (s : State) : Result := .next (s.prefixRep .repne)

/-- REP_REPE_REPZ__prefix (R456). -/
def execPfxRep (s : State) : Result := .next (s.prefixRep .rep)

/-- NOP__XCHG_AX_AX (R459). -/
def execNop (s : State) : Result := .next (s.advance .nop)

/-- WAIT (R448). -/
def execWait (s : State) : Result := .next (s.advance .wait)

/-- HLT (R447). -/
def execHlt (s : State) : Result := .next ((s.setHalted true).advance .hlt)

/-- CMC (R442). -/
def execCmc (s : State) : Result := .next ((s.setFlag .cf (!s.flag .cf)).advance .cmc)

/-- CLC (R440). -/
def execClc (s : State) : Result := .next ((s.setFlag .cf false).advance .clc)

/-- STC (R441). -/
def execStc (s : State) : Result := .next ((s.setFlag .cf true).advance .stc)

/-- CLI (R445). -/
def execCli (s : State) : Result := .next ((s.setFlag .if_ false).advance .cli)

/-- STI (R446). -/
def execSti (s : State) : Result := .next (((s.setFlag .if_ true).setShadow).advance .sti)

/-- CLD (R443). -/
def execCld (s : State) : Result := .next ((s.setFlag .df false).advance .cld)

/-- STD (R444). -/
def execStd (s : State) : Result := .next ((s.setFlag .df true).advance .std)

end Sys2Proof.Machine
end

