-- ==== Sys2Proof/Machine/Strings.lean ====
section
/-! DEFINITION. The meanings of the string instructions (43_string.md): one definition per constructor
of `Instr`, over the shared operations of Machine/Patterns.lean. -/

namespace Sys2Proof.Machine

/-- INSB (R367). -/
def execInsb (s : State) : Result := .next (s.stringStep .insb State.insElem8 neverStops)

/-- INSW (R367). -/
def execInsw (s : State) : Result := .next (s.stringStep .insw State.insElem16 neverStops)

/-- OUTSB (R368). -/
def execOutsb (s : State) : Result := .next (s.stringStep .outsb State.outsElem8 neverStops)

/-- OUTSW (R368). -/
def execOutsw (s : State) : Result := .next (s.stringStep .outsw State.outsElem16 neverStops)

/-- MOVSB (R362). -/
def execMovsb (s : State) : Result := .next (s.stringStep .movsb State.movsElem8 neverStops)

/-- MOVSW (R362). -/
def execMovsw (s : State) : Result := .next (s.stringStep .movsw State.movsElem16 neverStops)

/-- CMPSB (R363). -/
def execCmpsb (s : State) : Result := .next (s.stringStep .cmpsb State.cmpsElem8 zfStops)

/-- CMPSW (R363). -/
def execCmpsw (s : State) : Result := .next (s.stringStep .cmpsw State.cmpsElem16 zfStops)

/-- STOSB (R366). -/
def execStosb (s : State) : Result := .next (s.stringStep .stosb State.stosElem8 neverStops)

/-- STOSW (R366). -/
def execStosw (s : State) : Result := .next (s.stringStep .stosw State.stosElem16 neverStops)

/-- LODSB (R365). -/
def execLodsb (s : State) : Result := .next (s.stringStep .lodsb State.lodsElem8 neverStops)

/-- LODSW (R365). -/
def execLodsw (s : State) : Result := .next (s.stringStep .lodsw State.lodsElem16 neverStops)

/-- SCASB (R364). -/
def execScasb (s : State) : Result := .next (s.stringStep .scasb State.scasElem8 zfStops)

/-- SCASW (R364). -/
def execScasw (s : State) : Result := .next (s.stringStep .scasw State.scasElem16 zfStops)

end Sys2Proof.Machine
end

