-- ==== Sys2Proof/Machine/Dispatch.lean ====
section
/-! DEFINITION. The dispatch: every instruction to its meaning. -/

namespace Sys2Proof.Machine

/-- The outcome of one instruction, its prefixes already in the state (30_encoding.md R155). -/
def exec (i : Instr) (s : State) : Host.Outcome State Fault Refusal :=
  match i with
  | .addEbGb e g => Sys2Proof.Machine.execAddEbGb e g s
  | .addEvGv e g => Sys2Proof.Machine.execAddEvGv e g s
  | .addGbEb g e => Sys2Proof.Machine.execAddGbEb g e s
  | .addGvEv g e => Sys2Proof.Machine.execAddGvEv g e s
  | .addAlIb imm => Sys2Proof.Machine.execAddAlIb imm s
  | .addAxIw imm => Sys2Proof.Machine.execAddAxIw imm s
  | .addEbIb e imm => Sys2Proof.Machine.execAddEbIb e imm s
  | .addEvIw e imm => Sys2Proof.Machine.execAddEvIw e imm s
  | .addEbIbAlias e imm => Sys2Proof.Machine.execAddEbIbAlias e imm s
  | .addEvIbs e imm => Sys2Proof.Machine.execAddEvIbs e imm s
  | .orEbGb e g => Sys2Proof.Machine.execOrEbGb e g s
  | .orEvGv e g => Sys2Proof.Machine.execOrEvGv e g s
  | .orGbEb g e => Sys2Proof.Machine.execOrGbEb g e s
  | .orGvEv g e => Sys2Proof.Machine.execOrGvEv g e s
  | .orAlIb imm => Sys2Proof.Machine.execOrAlIb imm s
  | .orAxIw imm => Sys2Proof.Machine.execOrAxIw imm s
  | .orEbIb e imm => Sys2Proof.Machine.execOrEbIb e imm s
  | .orEvIw e imm => Sys2Proof.Machine.execOrEvIw e imm s
  | .orEbIbAlias e imm => Sys2Proof.Machine.execOrEbIbAlias e imm s
  | .orEvIbs e imm => Sys2Proof.Machine.execOrEvIbs e imm s
  | .adcEbGb e g => Sys2Proof.Machine.execAdcEbGb e g s
  | .adcEvGv e g => Sys2Proof.Machine.execAdcEvGv e g s
  | .adcGbEb g e => Sys2Proof.Machine.execAdcGbEb g e s
  | .adcGvEv g e => Sys2Proof.Machine.execAdcGvEv g e s
  | .adcAlIb imm => Sys2Proof.Machine.execAdcAlIb imm s
  | .adcAxIw imm => Sys2Proof.Machine.execAdcAxIw imm s
  | .adcEbIb e imm => Sys2Proof.Machine.execAdcEbIb e imm s
  | .adcEvIw e imm => Sys2Proof.Machine.execAdcEvIw e imm s
  | .adcEbIbAlias e imm => Sys2Proof.Machine.execAdcEbIbAlias e imm s
  | .adcEvIbs e imm => Sys2Proof.Machine.execAdcEvIbs e imm s
  | .sbbEbGb e g => Sys2Proof.Machine.execSbbEbGb e g s
  | .sbbEvGv e g => Sys2Proof.Machine.execSbbEvGv e g s
  | .sbbGbEb g e => Sys2Proof.Machine.execSbbGbEb g e s
  | .sbbGvEv g e => Sys2Proof.Machine.execSbbGvEv g e s
  | .sbbAlIb imm => Sys2Proof.Machine.execSbbAlIb imm s
  | .sbbAxIw imm => Sys2Proof.Machine.execSbbAxIw imm s
  | .sbbEbIb e imm => Sys2Proof.Machine.execSbbEbIb e imm s
  | .sbbEvIw e imm => Sys2Proof.Machine.execSbbEvIw e imm s
  | .sbbEbIbAlias e imm => Sys2Proof.Machine.execSbbEbIbAlias e imm s
  | .sbbEvIbs e imm => Sys2Proof.Machine.execSbbEvIbs e imm s
  | .andEbGb e g => Sys2Proof.Machine.execAndEbGb e g s
  | .andEvGv e g => Sys2Proof.Machine.execAndEvGv e g s
  | .andGbEb g e => Sys2Proof.Machine.execAndGbEb g e s
  | .andGvEv g e => Sys2Proof.Machine.execAndGvEv g e s
  | .andAlIb imm => Sys2Proof.Machine.execAndAlIb imm s
  | .andAxIw imm => Sys2Proof.Machine.execAndAxIw imm s
  | .andEbIb e imm => Sys2Proof.Machine.execAndEbIb e imm s
  | .andEvIw e imm => Sys2Proof.Machine.execAndEvIw e imm s
  | .andEbIbAlias e imm => Sys2Proof.Machine.execAndEbIbAlias e imm s
  | .andEvIbs e imm => Sys2Proof.Machine.execAndEvIbs e imm s
  | .subEbGb e g => Sys2Proof.Machine.execSubEbGb e g s
  | .subEvGv e g => Sys2Proof.Machine.execSubEvGv e g s
  | .subGbEb g e => Sys2Proof.Machine.execSubGbEb g e s
  | .subGvEv g e => Sys2Proof.Machine.execSubGvEv g e s
  | .subAlIb imm => Sys2Proof.Machine.execSubAlIb imm s
  | .subAxIw imm => Sys2Proof.Machine.execSubAxIw imm s
  | .subEbIb e imm => Sys2Proof.Machine.execSubEbIb e imm s
  | .subEvIw e imm => Sys2Proof.Machine.execSubEvIw e imm s
  | .subEbIbAlias e imm => Sys2Proof.Machine.execSubEbIbAlias e imm s
  | .subEvIbs e imm => Sys2Proof.Machine.execSubEvIbs e imm s
  | .xorEbGb e g => Sys2Proof.Machine.execXorEbGb e g s
  | .xorEvGv e g => Sys2Proof.Machine.execXorEvGv e g s
  | .xorGbEb g e => Sys2Proof.Machine.execXorGbEb g e s
  | .xorGvEv g e => Sys2Proof.Machine.execXorGvEv g e s
  | .xorAlIb imm => Sys2Proof.Machine.execXorAlIb imm s
  | .xorAxIw imm => Sys2Proof.Machine.execXorAxIw imm s
  | .xorEbIb e imm => Sys2Proof.Machine.execXorEbIb e imm s
  | .xorEvIw e imm => Sys2Proof.Machine.execXorEvIw e imm s
  | .xorEbIbAlias e imm => Sys2Proof.Machine.execXorEbIbAlias e imm s
  | .xorEvIbs e imm => Sys2Proof.Machine.execXorEvIbs e imm s
  | .cmpEbGb e g => Sys2Proof.Machine.execCmpEbGb e g s
  | .cmpEvGv e g => Sys2Proof.Machine.execCmpEvGv e g s
  | .cmpGbEb g e => Sys2Proof.Machine.execCmpGbEb g e s
  | .cmpGvEv g e => Sys2Proof.Machine.execCmpGvEv g e s
  | .cmpAlIb imm => Sys2Proof.Machine.execCmpAlIb imm s
  | .cmpAxIw imm => Sys2Proof.Machine.execCmpAxIw imm s
  | .cmpEbIb e imm => Sys2Proof.Machine.execCmpEbIb e imm s
  | .cmpEvIw e imm => Sys2Proof.Machine.execCmpEvIw e imm s
  | .cmpEbIbAlias e imm => Sys2Proof.Machine.execCmpEbIbAlias e imm s
  | .cmpEvIbs e imm => Sys2Proof.Machine.execCmpEvIbs e imm s
  | .incR16 r => Sys2Proof.Machine.execIncR16 r s
  | .decR16 r => Sys2Proof.Machine.execDecR16 r s
  | .pushR16 r => Sys2Proof.Machine.execPushR16 r s
  | .popR16 r => Sys2Proof.Machine.execPopR16 r s
  | .boundGvMa g m => Sys2Proof.Machine.execBoundGvMa g m s
  | .pushIw imm => Sys2Proof.Machine.execPushIw imm s
  | .imulGvEvIw g e imm => Sys2Proof.Machine.execImulGvEvIw g e imm s
  | .pushIbs imm => Sys2Proof.Machine.execPushIbs imm s
  | .imulGvEvIbs g e imm => Sys2Proof.Machine.execImulGvEvIbs g e imm s
  | .joRel8 rel => Sys2Proof.Machine.execJoRel8 rel s
  | .jnoRel8 rel => Sys2Proof.Machine.execJnoRel8 rel s
  | .jbRel8 rel => Sys2Proof.Machine.execJbRel8 rel s
  | .jnbRel8 rel => Sys2Proof.Machine.execJnbRel8 rel s
  | .jzRel8 rel => Sys2Proof.Machine.execJzRel8 rel s
  | .jnzRel8 rel => Sys2Proof.Machine.execJnzRel8 rel s
  | .jbeRel8 rel => Sys2Proof.Machine.execJbeRel8 rel s
  | .jaRel8 rel => Sys2Proof.Machine.execJaRel8 rel s
  | .jsRel8 rel => Sys2Proof.Machine.execJsRel8 rel s
  | .jnsRel8 rel => Sys2Proof.Machine.execJnsRel8 rel s
  | .jpRel8 rel => Sys2Proof.Machine.execJpRel8 rel s
  | .jnpRel8 rel => Sys2Proof.Machine.execJnpRel8 rel s
  | .jlRel8 rel => Sys2Proof.Machine.execJlRel8 rel s
  | .jgeRel8 rel => Sys2Proof.Machine.execJgeRel8 rel s
  | .jleRel8 rel => Sys2Proof.Machine.execJleRel8 rel s
  | .jgRel8 rel => Sys2Proof.Machine.execJgRel8 rel s
  | .testEbGb e g => Sys2Proof.Machine.execTestEbGb e g s
  | .testEvGv e g => Sys2Proof.Machine.execTestEvGv e g s
  | .xchgEbGb e g => Sys2Proof.Machine.execXchgEbGb e g s
  | .xchgEvGv e g => Sys2Proof.Machine.execXchgEvGv e g s
  | .movEbGb e g => Sys2Proof.Machine.execMovEbGb e g s
  | .movEvGv e g => Sys2Proof.Machine.execMovEvGv e g s
  | .movGbEb g e => Sys2Proof.Machine.execMovGbEb g e s
  | .movGvEv g e => Sys2Proof.Machine.execMovGvEv g e s
  | .movEwEs e => Sys2Proof.Machine.execMovEwEs e s
  | .movEwCs e => Sys2Proof.Machine.execMovEwCs e s
  | .movEwSs e => Sys2Proof.Machine.execMovEwSs e s
  | .movEwDs e => Sys2Proof.Machine.execMovEwDs e s
  | .leaGvM g m => Sys2Proof.Machine.execLeaGvM g m s
  | .movEsEw e => Sys2Proof.Machine.execMovEsEw e s
  | .movSsEw e => Sys2Proof.Machine.execMovSsEw e s
  | .movDsEw e => Sys2Proof.Machine.execMovDsEw e s
  | .popEv e => Sys2Proof.Machine.execPopEv e s
  | .xchgR16Ax r => Sys2Proof.Machine.execXchgR16Ax r s
  | .callAp off sg => Sys2Proof.Machine.execCallAp off sg s
  | .movAlOb o => Sys2Proof.Machine.execMovAlOb o s
  | .movAxOw o => Sys2Proof.Machine.execMovAxOw o s
  | .movObAl o => Sys2Proof.Machine.execMovObAl o s
  | .movOwAx o => Sys2Proof.Machine.execMovOwAx o s
  | .testAlIb imm => Sys2Proof.Machine.execTestAlIb imm s
  | .testAxIw imm => Sys2Proof.Machine.execTestAxIw imm s
  | .movR8Ib r imm => Sys2Proof.Machine.execMovR8Ib r imm s
  | .movR16Iw r imm => Sys2Proof.Machine.execMovR16Iw r imm s
  | .rolEbIb e c => Sys2Proof.Machine.execRolEbIb e c s
  | .rolEvIb e c => Sys2Proof.Machine.execRolEvIb e c s
  | .rolEb1 e => Sys2Proof.Machine.execRolEb1 e s
  | .rolEv1 e => Sys2Proof.Machine.execRolEv1 e s
  | .rolEbCl e => Sys2Proof.Machine.execRolEbCl e s
  | .rolEvCl e => Sys2Proof.Machine.execRolEvCl e s
  | .rorEbIb e c => Sys2Proof.Machine.execRorEbIb e c s
  | .rorEvIb e c => Sys2Proof.Machine.execRorEvIb e c s
  | .rorEb1 e => Sys2Proof.Machine.execRorEb1 e s
  | .rorEv1 e => Sys2Proof.Machine.execRorEv1 e s
  | .rorEbCl e => Sys2Proof.Machine.execRorEbCl e s
  | .rorEvCl e => Sys2Proof.Machine.execRorEvCl e s
  | .rclEbIb e c => Sys2Proof.Machine.execRclEbIb e c s
  | .rclEvIb e c => Sys2Proof.Machine.execRclEvIb e c s
  | .rclEb1 e => Sys2Proof.Machine.execRclEb1 e s
  | .rclEv1 e => Sys2Proof.Machine.execRclEv1 e s
  | .rclEbCl e => Sys2Proof.Machine.execRclEbCl e s
  | .rclEvCl e => Sys2Proof.Machine.execRclEvCl e s
  | .rcrEbIb e c => Sys2Proof.Machine.execRcrEbIb e c s
  | .rcrEvIb e c => Sys2Proof.Machine.execRcrEvIb e c s
  | .rcrEb1 e => Sys2Proof.Machine.execRcrEb1 e s
  | .rcrEv1 e => Sys2Proof.Machine.execRcrEv1 e s
  | .rcrEbCl e => Sys2Proof.Machine.execRcrEbCl e s
  | .rcrEvCl e => Sys2Proof.Machine.execRcrEvCl e s
  | .shlEbIb e c => Sys2Proof.Machine.execShlEbIb e c s
  | .shlEvIb e c => Sys2Proof.Machine.execShlEvIb e c s
  | .shlEb1 e => Sys2Proof.Machine.execShlEb1 e s
  | .shlEv1 e => Sys2Proof.Machine.execShlEv1 e s
  | .shlEbCl e => Sys2Proof.Machine.execShlEbCl e s
  | .shlEvCl e => Sys2Proof.Machine.execShlEvCl e s
  | .shrEbIb e c => Sys2Proof.Machine.execShrEbIb e c s
  | .shrEvIb e c => Sys2Proof.Machine.execShrEvIb e c s
  | .shrEb1 e => Sys2Proof.Machine.execShrEb1 e s
  | .shrEv1 e => Sys2Proof.Machine.execShrEv1 e s
  | .shrEbCl e => Sys2Proof.Machine.execShrEbCl e s
  | .shrEvCl e => Sys2Proof.Machine.execShrEvCl e s
  | .sarEbIb e c => Sys2Proof.Machine.execSarEbIb e c s
  | .sarEvIb e c => Sys2Proof.Machine.execSarEvIb e c s
  | .sarEb1 e => Sys2Proof.Machine.execSarEb1 e s
  | .sarEv1 e => Sys2Proof.Machine.execSarEv1 e s
  | .sarEbCl e => Sys2Proof.Machine.execSarEbCl e s
  | .sarEvCl e => Sys2Proof.Machine.execSarEvCl e s
  | .retIw imm => Sys2Proof.Machine.execRetIw imm s
  | .lesGvMp g m => Sys2Proof.Machine.execLesGvMp g m s
  | .ldsGvMp g m => Sys2Proof.Machine.execLdsGvMp g m s
  | .movEbIb e imm => Sys2Proof.Machine.execMovEbIb e imm s
  | .movEvIw e imm => Sys2Proof.Machine.execMovEvIw e imm s
  | .enterIwIb size level => Sys2Proof.Machine.execEnterIwIb size level s
  | .retfIw imm => Sys2Proof.Machine.execRetfIw imm s
  | .intIb n => Sys2Proof.Machine.execIntIb n s
  | .aamIb imm => Sys2Proof.Machine.execAamIb imm s
  | .aadIb imm => Sys2Proof.Machine.execAadIb imm s
  | .esc n x e => Sys2Proof.Machine.execEsc n x e s
  | .loopnzRel8 rel => Sys2Proof.Machine.execLoopnzRel8 rel s
  | .loopzRel8 rel => Sys2Proof.Machine.execLoopzRel8 rel s
  | .loopRel8 rel => Sys2Proof.Machine.execLoopRel8 rel s
  | .jcxzRel8 rel => Sys2Proof.Machine.execJcxzRel8 rel s
  | .inAlIb p => Sys2Proof.Machine.execInAlIb p s
  | .inAxIb p => Sys2Proof.Machine.execInAxIb p s
  | .outIbAl p => Sys2Proof.Machine.execOutIbAl p s
  | .outIbAx p => Sys2Proof.Machine.execOutIbAx p s
  | .callRel16 rel => Sys2Proof.Machine.execCallRel16 rel s
  | .jmpRel16 rel => Sys2Proof.Machine.execJmpRel16 rel s
  | .jmpAp off sg => Sys2Proof.Machine.execJmpAp off sg s
  | .jmpRel8 rel => Sys2Proof.Machine.execJmpRel8 rel s
  | .testEbIb e imm => Sys2Proof.Machine.execTestEbIb e imm s
  | .testEvIw e imm => Sys2Proof.Machine.execTestEvIw e imm s
  | .notEb e => Sys2Proof.Machine.execNotEb e s
  | .notEv e => Sys2Proof.Machine.execNotEv e s
  | .negEb e => Sys2Proof.Machine.execNegEb e s
  | .negEv e => Sys2Proof.Machine.execNegEv e s
  | .mulEb e => Sys2Proof.Machine.execMulEb e s
  | .mulEv e => Sys2Proof.Machine.execMulEv e s
  | .imulEb e => Sys2Proof.Machine.execImulEb e s
  | .imulEv e => Sys2Proof.Machine.execImulEv e s
  | .divEb e => Sys2Proof.Machine.execDivEb e s
  | .divEv e => Sys2Proof.Machine.execDivEv e s
  | .idivEb e => Sys2Proof.Machine.execIdivEb e s
  | .idivEv e => Sys2Proof.Machine.execIdivEv e s
  | .incEb e => Sys2Proof.Machine.execIncEb e s
  | .decEb e => Sys2Proof.Machine.execDecEb e s
  | .incEv e => Sys2Proof.Machine.execIncEv e s
  | .decEv e => Sys2Proof.Machine.execDecEv e s
  | .callEv e => Sys2Proof.Machine.execCallEv e s
  | .callMp m => Sys2Proof.Machine.execCallMp m s
  | .jmpEv e => Sys2Proof.Machine.execJmpEv e s
  | .jmpMp m => Sys2Proof.Machine.execJmpMp m s
  | .pushEv e => Sys2Proof.Machine.execPushEv e s
  | .pushEs => Sys2Proof.Machine.execPushEs s
  | .pushCs => Sys2Proof.Machine.execPushCs s
  | .pushSs => Sys2Proof.Machine.execPushSs s
  | .pushDs => Sys2Proof.Machine.execPushDs s
  | .popEs => Sys2Proof.Machine.execPopEs s
  | .popSs => Sys2Proof.Machine.execPopSs s
  | .popDs => Sys2Proof.Machine.execPopDs s
  | .pfxEs => Sys2Proof.Machine.execPfxEs s
  | .pfxCs => Sys2Proof.Machine.execPfxCs s
  | .pfxSs => Sys2Proof.Machine.execPfxSs s
  | .pfxDs => Sys2Proof.Machine.execPfxDs s
  | .pfxLock => Sys2Proof.Machine.execPfxLock s
  | .pfxRepne => Sys2Proof.Machine.execPfxRepne s
  | .pfxRep => Sys2Proof.Machine.execPfxRep s
  | .daa => Sys2Proof.Machine.execDaa s
  | .das => Sys2Proof.Machine.execDas s
  | .aaa => Sys2Proof.Machine.execAaa s
  | .aas => Sys2Proof.Machine.execAas s
  | .pusha => Sys2Proof.Machine.execPusha s
  | .popa => Sys2Proof.Machine.execPopa s
  | .insb => Sys2Proof.Machine.execInsb s
  | .insw => Sys2Proof.Machine.execInsw s
  | .outsb => Sys2Proof.Machine.execOutsb s
  | .outsw => Sys2Proof.Machine.execOutsw s
  | .nop => Sys2Proof.Machine.execNop s
  | .cbw => Sys2Proof.Machine.execCbw s
  | .cwd => Sys2Proof.Machine.execCwd s
  | .wait => Sys2Proof.Machine.execWait s
  | .pushf => Sys2Proof.Machine.execPushf s
  | .popf => Sys2Proof.Machine.execPopf s
  | .sahf => Sys2Proof.Machine.execSahf s
  | .lahf => Sys2Proof.Machine.execLahf s
  | .movsb => Sys2Proof.Machine.execMovsb s
  | .movsw => Sys2Proof.Machine.execMovsw s
  | .cmpsb => Sys2Proof.Machine.execCmpsb s
  | .cmpsw => Sys2Proof.Machine.execCmpsw s
  | .stosb => Sys2Proof.Machine.execStosb s
  | .stosw => Sys2Proof.Machine.execStosw s
  | .lodsb => Sys2Proof.Machine.execLodsb s
  | .lodsw => Sys2Proof.Machine.execLodsw s
  | .scasb => Sys2Proof.Machine.execScasb s
  | .scasw => Sys2Proof.Machine.execScasw s
  | .ret => Sys2Proof.Machine.execRet s
  | .leave => Sys2Proof.Machine.execLeave s
  | .retf => Sys2Proof.Machine.execRetf s
  | .int3 => Sys2Proof.Machine.execInt3 s
  | .into => Sys2Proof.Machine.execInto s
  | .iret => Sys2Proof.Machine.execIret s
  | .xlat => Sys2Proof.Machine.execXlat s
  | .inAlDx => Sys2Proof.Machine.execInAlDx s
  | .inAxDx => Sys2Proof.Machine.execInAxDx s
  | .outDxAl => Sys2Proof.Machine.execOutDxAl s
  | .outDxAx => Sys2Proof.Machine.execOutDxAx s
  | .hlt => Sys2Proof.Machine.execHlt s
  | .cmc => Sys2Proof.Machine.execCmc s
  | .clc => Sys2Proof.Machine.execClc s
  | .stc => Sys2Proof.Machine.execStc s
  | .cli => Sys2Proof.Machine.execCli s
  | .sti => Sys2Proof.Machine.execSti s
  | .cld => Sys2Proof.Machine.execCld s
  | .std => Sys2Proof.Machine.execStd s

end Sys2Proof.Machine
end

