-- ==== Sys2Proof/Machine/Fetch.lean ====
section
/-! DEFINITION. Fetching and decoding at CS:IP (20_memory.md R109, 30_encoding.md R170, R186, R187), and
placing an instruction where the next fetch reads. -/

namespace Sys2Proof

/-- What an instruction's operands can be read from: its prefixes, the registers and FLAGS, and the memory as the bus reads
it (R640).  CX among the registers tells the iterations of a repeated string instruction apart. -/
structure Machine.OperandView where
  segOvr : Option SReg
  rep : Option Machine.RepKind
  lock : Bool
  pfxLen : Nat
  regs : Machine.RegTable Word
  segs : Machine.Segs
  flags : Word
  mem : Phys → Byte

namespace Config

/-- `CycleCost` less 1, of an instruction and of what its operands can be read from, its prefixes already read (R640,
D4; DESIGN CHOICE, Log 7).  Nothing of the host and no device is among its arguments (R586, R594). -/
opaque cycleCost (i : Instr) (v : Machine.OperandView) : Nat

end Config

namespace Machine

/-- The byte the decoder reads next and the ones after it: the `n` bytes from offset `off` of the code
segment (R109). -/
def State.codeBytes (s : State) (off : Word) : Nat → List Byte
  | 0 => []
  | n + 1 => s.mem8 s.segs.cs off :: s.codeBytes (off + 1#16) n

/-- The entries that fetching `n` bytes from offset `off` records (R53). -/
def State.unsetCode (s : State) (off : Word) : Nat → List FaultRecord
  | 0 => []
  | n + 1 => s.unsetMem8 s.segs.cs off ++ s.unsetCode (off + 1#16) n

/-- The offset of the byte after the prefixes read so far. -/
def State.codeOffset (s : State) : Word := s.ip + BitVec.ofNat 16 s.cur.pfxLen

/-- What stands at the code offset: a prefix or an instruction, or a decode gap; each with its length
without the prefixes before it (R170, R187). -/
inductive Fetched where
  | instr (i : Instr) (len : Nat)
  | gap (len : Nat)
deriving DecidableEq, Repr

/-- Reads what stands at the code offset (R170).  Six bytes are enough for any instruction (R150), so
`decode` is never short of bytes here. -/
def State.fetch (s : State) : Fetched :=
  match decode (s.codeBytes s.codeOffset maxLen) with
  | .instr i rest => .instr i (maxLen - rest.length)
  | .gap _ len => .gap len
  | .short => .gap maxLen

/-- The state after fetching `n` bytes at the code offset: only the bytes that belong to the instruction
are read (R109, R170). -/
def State.noteCode (s : State) (n : Nat) : State := s.record (s.unsetCode s.codeOffset n)

/-- `GapStep` (R186): the diagnostic with the bytes of the gap, prefixes first, and the advance of IP; `len`
is the length without the prefixes. -/
def State.gapStep (s : State) (len : Nat) : State :=
  let n := s.cur.pfxLen + len
  { s with
    diag := s.diag ++ [.decodeGap s.segs.cs s.ip (s.codeBytes s.ip n)]
    ip := s.ip + BitVec.ofNat 16 n }

/-- What the operands of the instruction that starts now can be read from (R640). -/
def State.operandView (s : State) : OperandView where
  segOvr := s.cur.segOvr
  rep := s.cur.rep
  lock := s.cur.lock
  pfxLen := s.cur.pfxLen
  regs := s.regs
  segs := s.segs
  flags := s.flags
  mem := s.busRead8

/-- The cycles of an execution step (R640, R642). -/
def State.cycles (s : State) (i : Instr) : Nat :=
  match s.ext.cycleCost with
  | .uniform n => n
  | .byForm => Config.cycleCost i s.operandView + 1

/-- Stores a byte where a physical address reads, ROM included: the loading of an image before a run
(DESIGN CHOICE, Log 10). -/
def State.loadByte (s : State) (a : Phys) (b : Byte) : State :=
  match s.locate a with
  | .rom o => { s with rom := { s.rom with cells := Memory.put (some 0#8) s.rom.cells o b } }
  | .ram i => s.writePlace (.ram i) b
  | .save i => s.writePlace (.save i) b
  | .openBus => s

/-- Loads bytes from offset `off` of the code segment on (DESIGN CHOICE, Log 10). -/
def State.loadCode (s : State) (off : Word) : List Byte → State
  | [] => s
  | b :: bs => (s.loadByte (phys s.segs.cs off) b).loadCode (off + 1#16) bs

end Machine

end Sys2Proof
end

