-- ==== Sys2Proof/Machine/Cpu.lean ====
section
/-! DEFINITION. The CPU step: the instruction boundary, interrupt acceptance, the halted step, the execution
of one instruction with its prefixes, and the single-step trap (60_exceptions.md R470-R497). -/

namespace Sys2Proof.Machine

/-- The outcome of a CPU step: the state after it, and its cycles, `none` for a halted step (R470, R620). -/
abbrev Stepped := Host.Outcome (State × Option Nat) Fault Refusal

/-- Appends the trace record of an instruction, in trace mode (R192, R594; DESIGN CHOICE, Log 20); `s0` is the state the
instruction started from. -/
def State.traced (s : State) (s0 : State) (i : Instr) : State :=
  match s.mode with
  | .normal => s
  | .mute => s
  | .trace =>
    { s with
      trace := s.trace ++
        [{ cs := s0.segs.cs, ip := s0.ip, segOvr := s0.cur.segOvr, rep := s0.cur.rep, lock := s0.cur.lock, instr := i,
           regs := s.regs, segs := s.segs, ipAfter := s.ip, flags := s.flags }] }

/-- `Execute()` (R470): prefixes are read one by one, then one instruction or one decode gap is executed.
The first argument bounds the prefixes: 65536 of them leave the state hung (R152). -/
def executeN : Nat → State → Stepped
  | 0, _ => .fault .hung
  | n + 1, s =>
    match s.fetch with
    | .gap len => .next ((s.noteCode len).gapStep len, some s.ext.gapCycles)
    | .instr i len =>
      match exec i (s.noteCode len) with
      | .fault r => .fault r
      | .refused r => .refused r
      | .next t => if i.isPrefix then executeN n t else .next (t.traced s i, some (s.cycles i))

/-- `Execute()` with the bound of R152. -/
def State.execute (s : State) : Stepped := executeN 65536 s

/-- The single-step trap at the end of an execution step (R497): `tf0` is TF before the instruction. -/
def State.singleStep (s : State) (tf0 : Bool) (c : Option Nat) : State × Option Nat :=
  if s.cfg.singleStep = true ∧ tf0 = true ∧ s.cur.entered = false then
    (s.enter 1#8 s.ip, c.map (· + s.ext.intEntryCycles))
  else (s, c)

/-- An execution step (R470): `shadow` is reset, one instruction is executed, and the single-step trap is
taken. -/
def State.runInstr (s : State) : Stepped :=
  match ({ s with shadow := false } : State).execute with
  | .fault r => .fault r
  | .refused r => .refused r
  | .next (t, c) => .next (t.singleStep (s.flag .tf) c)

/-- `AcceptInterrupt(k)` (R476). -/
def State.acceptInterrupt (s : State) (k : Nat) : State :=
  ((s.acknowledge k).setHalted false).enter (s.vectorOf k) s.ip

/-- The CPU step when no source is taken at the boundary (R470, R477, R478). -/
def State.stepNoInterrupt (s : State) : Stepped :=
  if s.halted then
    if s.cfg.haltWakeIgnoresIf = true ∧ s.highestPending ≠ none then (s.setHalted false).runInstr else .next (s, none)
  else s.runInstr

/-- `CpuStep()` (R470). -/
def State.cpuStep (s : State) : Stepped :=
  if s.flag .if_ = true ∧ s.shadow = false then
    match s.highestPending with
    | some k => .next (s.acceptInterrupt k, some s.ext.intEntryCycles)
    | none => s.stepNoInterrupt
  else s.stepNoInterrupt

end Sys2Proof.Machine
end

