-- ==== Sys2Proof/Machine/Scheduler.lean ====
section
/-! DEFINITION. The scheduler step (70_reset_and_hazards.md R620-R622). -/

namespace Sys2Proof.Machine

/-- `Convert(e, p/q, rem)`: the ticks and the new remainder (R622). -/
def convertCycles (e : Nat) (r : Ratio) (rem : Nat) : Nat × Nat := ((e * r.p + rem) / r.q, (e * r.p + rem) % r.q)

/-- `PpuDot` n times. -/
def State.ppuDots (s : State) : Nat → State
  | 0 => s
  | n + 1 => s.ppuDot.ppuDots n

/-- `ApuTick` n times. -/
def State.apuTicks (s : State) : Nat → State
  | 0 => s
  | n + 1 => s.apuTick.apuTicks n

/-- Every timer unit's tick, n times. -/
def State.timerTicks (s : State) : Nat → State
  | 0 => s
  | n + 1 => s.timerTickAll.timerTicks n

/-- The state with the devices of another: the devices that advance, the samples they produce and the sources
they raise.  They change
nothing else (R30, R571, R586). -/
def State.takeDevices (s d : State) : State :=
  { s with ic := d.ic, timers := d.timers, ppu := d.ppu, apu := d.apu, samples := d.samples, raised := d.raised }

/-- The peripherals advance by `e` cycles: PPU, then APU, then timer (R620). -/
def State.advanceDevices (s : State) (e : Nat) : State :=
  let d := convertCycles e s.ext.dotsPerCycle s.rem.ppu
  let a := convertCycles e s.ext.apuTicksPerCycle s.rem.apu
  let t := convertCycles e s.ext.timerClock s.rem.timer
  { s.takeDevices (((s.ppuDots d.1).apuTicks a.1).timerTicks t.1) with
    rem := { ppu := d.2, apu := a.2, timer := t.2 }, elapsed := s.elapsed + e }

/-- The cycles the peripherals advance by: `HALT_QUANTUM` after a halted step (R477, R620). -/
def State.deviceCycles (s : State) (c : Option Nat) : Nat := c.getD s.ext.haltQuantum

/-- The end of a step: no decode state is kept (R54). -/
def State.endStep (s : State) : State := { s with cur := {} }

/-- `SchedStep()` (R620). -/
def State.schedStep (s : State) : Host.Outcome State Fault Refusal :=
  match s.cpuStep with
  | .fault r => .fault r
  | .refused r => .refused r
  | .next (t, c) => .next (t.advanceDevices (t.deviceCycles c)).endStep

end Sys2Proof.Machine
end

