-- ==== Sys2Proof/Machine/Step.lean ====
section
/-! DEFINITION. The step of the machine, and the placing of an instruction at the next fetch. -/

namespace Sys2Proof.Machine

/-- One step of the machine: one scheduler step (00_scope.md R9, 70_reset_and_hazards.md R620; DEDUCED, Log 1). -/
def step (s : State) : Host.Outcome State Fault Refusal := s.schedStep

/-- The state with an instruction of the opcode table, zero bytes after it, where the next step fetches
(DESIGN CHOICE, Log 10, DEDUCED, Log 13). -/
def State.withFetchWord (s : State) (nbits w : Nat) : State := s.loadCode s.ip (tableInstrBytes nbits w)

end Sys2Proof.Machine
end

