-- ==== Sys2Proof/Machine/HostSide.lean ====
section
/-! DEFINITION. The host interface (60_exceptions.md R590-R595, 70_reset_and_hazards.md R600, R621, R624):
what the host does between scheduler steps.  None of it is a step of the machine. -/

namespace Sys2Proof.Machine

/-- What the host gives for the ROM at the start (R590, R591). -/
inductive RomFile where
  | absent
  | unreadable
  | image (bytes : List Byte)
deriving DecidableEq, Repr

/-- Why no machine is built (R591; 93_implementation_defined.md I19, I20; DEDUCED, Log 16). -/
inductive SetupError where
  /-- The ROM is present but unreadable. -/
  | romUnreadable
  /-- A parameter breaks its constraint. -/
  | badConfig
deriving DecidableEq, Repr

/-- The cells of a byte string from address `a` on, in the canonical form of a memory whose unlisted cells
hold 0. -/
def cellsOf (a : Nat) : List Byte → Memory
  | [] => []
  | b :: bs => if b = 0#8 then cellsOf (a + 1) bs else (a, b) :: cellsOf (a + 1) bs

/-- The `n` bytes of such a memory from address `a` on. -/
def bytesOf (m : Memory) (a : Nat) : Nat → List Byte
  | 0 => []
  | n + 1 => (Memory.find? m a).getD 0#8 :: bytesOf m (a + 1) n

/-- The ROM of a machine; with no ROM path, `DEFAULT_ROM_SIZE` zero bytes (R117, R591, R600). -/
def romOf (c : Cfg) : RomFile → Except SetupError Rom
  | .absent => .ok { len := c.defaultRomSize }
  | .unreadable => .error .romUnreadable
  | .image bs => .ok { len := bs.length, cells := cellsOf 0 bs }

/-- The save memory of a cartridge with these bytes (R81, R116).  The spec makes `SAVE_SIZE` the cartridge's (R116, D30) and
does not tie it to the bytes that the host sends at the start (R590): the model takes their number for it, so that no byte
sent is dropped or missing, and an empty string gives open bus (DESIGN CHOICE, Log 33). -/
def saveOf (bs : List Byte) : SaveMem := { size := bs.length, cells := cellsOf 0 bs }

/-- The start interaction: the reset machine, or a setup error (R590, R600).  `SAVE_SIZE` is the number of save bytes given
(DESIGN CHOICE, Log 33).  Where a parameter breaks its constraint and the ROM is unreadable too, the error is `badConfig`: the
spec orders the two nowhere (DESIGN CHOICE, Log 34). -/
def start (c : Cfg) (o : OpenCfg) (rom : RomFile) (mode : HostMode) (save : List Byte)
    (input : List (Word × Byte)) : Except SetupError State :=
  if c.wf && o.wf c then
    match romOf c rom with
    | .ok r => .ok (State.resetWith c o r (saveOf save) mode input)
    | .error e => .error e
  else .error .badConfig

/-- Clears the frame edge (R621). -/
def State.clearEdge (s : State) : State := s.setPpu { s.ppu with vblankEdge := false }

/-- What a frame run returns (R590): the cycles it took, the sources raised in it (bit i is source i; DESIGN CHOICE,
Log 30), and the published frame. -/
structure FrameReport where
  cycles : Nat
  raised : BitVec 8
  frame : Option (List (List Nat))
deriving DecidableEq, Repr

/-- The loop of `runFrame()` (R621): scheduler steps up to and with the one that entered VBlank.  The first argument
bounds the steps; `none` is the answer when it is spent (Log 24). -/
def frameLoop : Nat → State → Option (Host.Outcome State Fault Refusal)
  | 0, _ => none
  | n + 1, s =>
    match step s with
    | .fault r => some (.fault r)
    | .refused r => some (.refused r)
    | .next t => if t.ppu.vblankEdge then some (.next t.clearEdge) else frameLoop n t

/-- The report of a frame that began in the state `s` and ended in `t` (R590). -/
def frameReport (s t : State) : FrameReport :=
  { cycles := t.elapsed - s.elapsed, raised := t.raised, frame := t.ppu.fbDone }

/-- `runFrame()` (R590, R621): the host's record of raised sources starts empty, the loop runs, and the report and the state
are returned. -/
def runFrame (n : Nat) (s : State) : Option (Host.Outcome (FrameReport × State) Fault Refusal) :=
  match frameLoop n (s.setRaised 0#8) with
  | none => none
  | some (.fault r) => some (.fault r)
  | some (.refused r) => some (.refused r)
  | some (.next t) => some (.next (frameReport s t, t))

/-- The frame hand-off: a copy of `fb_done` (R590, R593). -/
def State.frameOut (s : State) : Option (List (List Nat)) := s.ppu.fbDone

/-- The audio hand-off: the samples since the last one (R590, R593). -/
def State.audioOut (s : State) : List Int × State := (s.samples, { s with samples := [] })

/-- The trace hand-off (R590, R594). -/
def State.traceOut (s : State) : List TraceRec × State := (s.trace, { s with trace := [] })

/-- The save bytes, read by the host (R592). -/
def State.saveOut (s : State) : List Byte := bytesOf s.save.cells 0 s.save.size

/-- Writes a byte string to a memory whose unlisted cells hold 0, from address `a` on. -/
def putBytes (m : Memory) (a : Nat) : List Byte → Memory
  | [] => m
  | b :: bs => putBytes (Memory.put (some 0#8) m a b) (a + 1) bs

/-- The save bytes, written by the host verbatim (R592).  Of a string longer than `SAVE_SIZE` the excess is dropped, and
after a shorter one the bytes not given keep their value (DESIGN CHOICE, Log 28: the spec is silent on both). -/
def State.saveIn (s : State) (bs : List Byte) : State :=
  { s with save := { s.save with cells := putBytes s.save.cells 0 (bs.take s.save.size) } }

/-- A run that the host stops between steps: `n` scheduler steps (R624). -/
def runSteps : Nat → State → Host.Outcome State Fault Refusal
  | 0, s => .next s
  | n + 1, s =>
    match step s with
    | .fault r => .fault r
    | .refused r => .refused r
    | .next t => runSteps n t

end Sys2Proof.Machine
end

