-- ==== Sys2Proof/Safety.lean ====
section
/-! DEFINITION. What counts as a safe run and as its end, in the terms claims use
(70_reset_and_hazards.md R625, 10_state.md R52, R53). -/

namespace Sys2Proof.Machine

/-- No read of an unset location and no decode gap so far (R53, R52, D52). -/
def clean (s : State) : Bool := s.faults.isEmpty && s.diag.isEmpty

/-- No enabled source can wake a halted CPU with IF = 0 (R478, R625). -/
def noWake (s : State) : Bool := !s.cfg.haltWakeIgnoresIf || decide (s.ic.enable = 0#8)

/-- The end of a run of a test program (R625). -/
def finished (s : State) : Bool := s.halted && !s.flag .if_ && clean s && noWake s

/-- The CPU can never execute again: it is halted with IF = 0, and nothing wakes it (R478). -/
def stuck (s : State) : Bool := s.halted && !s.flag .if_ && noWake s

end Sys2Proof.Machine
end

