-- ==== Sys2Proof/Machine/Shapes.lean ====
section
/-! DEFINITION. The terms that statements about instructions use: what an instruction leaves alone, what it writes, and the
arithmetic of its results, each written out from the rules and not from the functions of the model. -/

namespace Sys2Proof.Machine

/-! ## Unset locations -/

/-- The entries that a read of an 8-bit register records (R53, R70). -/
def unsetByteReads (s : State) (q : Reg8) : List FaultRecord :=
  let mark : Bool :=
    match q with
    | .al => s.unset.ax.lo | .ah => s.unset.ax.hi | .cl => s.unset.cx.lo | .ch => s.unset.cx.hi
    | .dl => s.unset.dx.lo | .dh => s.unset.dx.hi | .bl => s.unset.bx.lo | .bh => s.unset.bx.hi
  if mark then [.readUnset (.half q)] else []

/-- The entries that a read of a 16-bit register records (R53, R70). -/
def unsetWordReads (s : State) (r : Reg16) : List FaultRecord :=
  match r with
  | .ax => unsetByteReads s .al ++ unsetByteReads s .ah
  | .cx => unsetByteReads s .cl ++ unsetByteReads s .ch
  | .dx => unsetByteReads s .dl ++ unsetByteReads s .dh
  | .bx => unsetByteReads s .bl ++ unsetByteReads s .bh
  | .sp => if s.unset.sp.lo then [.readUnset (.word .sp)] else []
  | .bp => if s.unset.bp.lo then [.readUnset (.word .bp)] else []
  | .si => if s.unset.si.lo then [.readUnset (.word .si)] else []
  | .di => if s.unset.di.lo then [.readUnset (.word .di)] else []

/-- The entries that a read of a storage byte records: one for a RAM byte that nothing has written, where RAM is unset at
reset (R53, R80). -/
def placeReads (s : State) (p : Place) : List FaultRecord :=
  match p with
  | .ram i => if s.cfg.resetRam = .unset ∧ ∀ c ∈ s.ram, c.1 ≠ i then [.readUnset (.ram i)] else []
  | _ => []

/-! ## What is left alone -/

/-- The instruction answers a next state, and it is as `P` says. -/
def Answers (i : Instr) (s : State) (P : State → Prop) : Prop := ∃ t, exec i s = .next t ∧ P t

/-- Everything outside the CPU and the writable memories is unchanged: the devices, the ROM, the save memory's size, the
clock remainders, what the host sees, the parameters, and the diagnostic log. -/
structure SameOutside (s t : State) : Prop where
  ic : t.ic = s.ic
  timers : t.timers = s.timers
  ppu : t.ppu = s.ppu
  apu : t.apu = s.apu
  banks : t.banks = s.banks
  rom : t.rom = s.rom
  saveSize : t.save.size = s.save.size
  rem : t.rem = s.rem
  elapsed : t.elapsed = s.elapsed
  mode : t.mode = s.mode
  samples : t.samples = s.samples
  raised : t.raised = s.raised
  trace : t.trace = s.trace
  input : t.input = s.input
  cfg : t.cfg = s.cfg
  ext : t.ext = s.ext
  diag : t.diag = s.diag

/-- As `SameOutside`, and the CPU's control state is unchanged; the fault record has only grown at its end. -/
structure SameCore (s t : State) : Prop where
  outside : SameOutside s t
  halted : t.halted = s.halted
  shadow : t.shadow = s.shadow
  cur : t.cur = s.cur
  faults : s.faults <+: t.faults

/-- The registers not listed keep their value and their unset marks. -/
def SameRegsBut (l : List Reg16) (s t : State) : Prop :=
  ∀ r, r ∉ l → t.reg16 r = s.reg16 r ∧ t.unset.get r = s.unset.get r

/-- Every byte of memory reads as before; and every storage byte, those of banks that are not selected too, holds what it
held and is as unset as it was. -/
structure SameMem (s t : State) : Prop where
  reads : ∀ a, t.busRead8 a = s.busRead8 a
  places : ∀ p, t.readPlace p = s.readPlace p
  marks : ∀ p, placeReads t p = placeReads s p

/-- Flags, general registers and memory are unchanged. -/
structure SameData (s t : State) : Prop where
  flags : t.flags = s.flags
  regs : SameRegsBut [] s t
  mem : SameMem s t

/-- The frame of an instruction that falls through and loads no segment register. -/
structure Plain (i : Instr) (s t : State) : Prop where
  core : SameCore s t
  segs : t.segs = s.segs
  ip : t.ip = s.ipNext i

/-- The bits of FLAGS that are not among the listed flags are unchanged, the reserved ones included. -/
def KeptFlags (l : List Flag) (fl fl' : Word) : Prop :=
  ∀ n, (∀ f ∈ l, flagBit f ≠ n) → fl'.getLsbD n = fl.getLsbD n

/-! ## What is written -/

/-- A byte `v` is stored at `sg:off`: the storage byte named there, where it is writable, holds `v`, is set, and is what every
address that names it reads; every other address reads, and every other storage byte holds, what it did. -/
structure Stored8 (s t : State) (sg off : Word) (v : Byte) : Prop where
  reads : ∀ a, t.busRead8 a =
    if s.locate a = s.locate (phys sg off) ∧ (s.locate (phys sg off)).writable = true then v else s.busRead8 a
  places : ∀ p, t.readPlace p =
    if p = s.locate (phys sg off) ∧ p.writable = true then v else s.readPlace p
  marks : ∀ p, placeReads t p =
    if p = s.locate (phys sg off) ∧ p.writable = true then [] else placeReads s p

/-- A word `v` is stored at `sg:off`, its low byte first: the two bytes at `off` and `off + 1` in the segment, and every
other address reads, and every other storage byte holds, what it did. -/
structure Stored16 (s t : State) (sg off v : Word) : Prop where
  reads : ∀ a, t.busRead8 a =
    if s.locate a = s.locate (phys sg (off + 1#16)) ∧ (s.locate (phys sg (off + 1#16))).writable = true then hiByte v
    else if s.locate a = s.locate (phys sg off) ∧ (s.locate (phys sg off)).writable = true then loByte v
    else s.busRead8 a
  places : ∀ p, t.readPlace p =
    if p = s.locate (phys sg (off + 1#16)) ∧ p.writable = true then hiByte v
    else if p = s.locate (phys sg off) ∧ p.writable = true then loByte v
    else s.readPlace p
  marks : ∀ p, placeReads t p =
    if (p = s.locate (phys sg (off + 1#16)) ∨ p = s.locate (phys sg off)) ∧ p.writable = true then [] else placeReads s p

/-- Memory is as it is in the state `u`: every address and every storage byte. -/
def MemAs (u t : State) : Prop := SameMem u t

/-- The 8-bit register `r` holds `v`; every other 8-bit register and every register without halves is unchanged. -/
def SetByteReg (s t : State) (r : Reg8) (v : Byte) : Prop :=
  (∀ q, t.reg8 q = if q = r then v else s.reg8 q) ∧ SameRegsBut [Reg8.parent r] s t

/-- The 16-bit register `r` holds `v`, and every other is unchanged. -/
def SetWordReg (s t : State) (r : Reg16) (v : Word) : Prop := t.reg16 r = v ∧ SameRegsBut [r] s t

/-- E of width 8 holds `v`, and no other register and no other byte of memory has changed. -/
def Wrote8 (s t : State) (e : Rm8) (v : Byte) : Prop :=
  match e with
  | .reg r => SetByteReg s t r v ∧ SameMem s t
  | .mem m => SameRegsBut [] s t ∧ Stored8 s t (s.eaSeg m) (s.eaOff m) v

/-- E of width 16 holds `v`, and no other register and no other byte of memory has changed. -/
def Wrote16 (s t : State) (e : Rm16) (v : Word) : Prop :=
  match e with
  | .reg r => SetWordReg s t r v ∧ SameMem s t
  | .mem m => SameRegsBut [] s t ∧ Stored16 s t (s.eaSeg m) (s.eaOff m) v

/-! ## Flags of results -/

/-- The low byte has an even number of 1 bits (R16). -/
def evenParity {w : Nat} (x : BitVec w) : Bool := ((List.range 8).countP fun k => x.getLsbD k) % 2 == 0

/-- SF, ZF and PF are those of a result (R16). -/
def SzpOf {w : Nat} (res : BitVec w) (fl' : Word) : Prop :=
  flagGet fl' .sf = res.getLsbD (w - 1) ∧ flagGet fl' .zf = decide (res.toNat = 0) ∧ flagGet fl' .pf = evenParity res

/-- The six arithmetic flags. -/
def arithFlags : List Flag := [.of, .sf, .zf, .af, .pf, .cf]

/-- An exact signed value is outside the range of width `w`. -/
def overflows (w : Nat) (x : Int) : Bool := decide (x < -(2 ^ (w - 1)) ∨ 2 ^ (w - 1) ≤ x)

/-- The result and the flags of an addition, CF apart: AF is the carry out of bit 3, OF says that the exact signed sum
does not fit (R42, R48, R260). -/
def SumOf {w : Nat} (a b : BitVec w) (c : Bool) (res : BitVec w) (fl fl' : Word) : Prop :=
  res.toNat = (a.toNat + b.toNat + c.toNat) % 2 ^ w
    ∧ flagGet fl' .af = decide (16 ≤ a.toNat % 16 + b.toNat % 16 + c.toNat)
    ∧ flagGet fl' .of = overflows w (a.toInt + b.toInt + c.toNat)
    ∧ SzpOf res fl' ∧ KeptFlags arithFlags fl fl'

/-- The result and the flags of a subtraction, CF apart: AF is the borrow into bit 3, OF says that the exact signed
difference does not fit (R42, R48, R260). -/
def DifferenceOf {w : Nat} (a b : BitVec w) (c : Bool) (res : BitVec w) (fl fl' : Word) : Prop :=
  (res.toNat : Int) = ((a.toNat : Int) - b.toNat - c.toNat) % 2 ^ w
    ∧ flagGet fl' .af = decide (a.toNat % 16 < b.toNat % 16 + c.toNat)
    ∧ flagGet fl' .of = overflows w (a.toInt - b.toInt - c.toNat)
    ∧ SzpOf res fl' ∧ KeptFlags arithFlags fl fl'

/-- The flags of a logical result: CF and OF are 0, SF, ZF and PF those of the result, AF a free value (R320). -/
def LogicFlagsOf {w : Nat} (res : BitVec w) (fl fl' : Word) : Prop :=
  flagGet fl' .cf = false ∧ flagGet fl' .of = false ∧ SzpOf res fl' ∧ KeptFlags arithFlags fl fl'

/-! ## Instruction shapes -/

/-- `dst <- dst + b + c` with its flags, of width 8 (R261, R262). -/
def Adds8 (s : State) (i : Instr) (dst : Rm8) (b : Byte) (c : Bool) : Prop :=
  Answers i s fun t => Plain i s t ∧ ∃ v, Wrote8 s t dst v ∧ SumOf (s.rm8 dst) b c v s.flags t.flags
    ∧ flagGet t.flags .cf = decide (2 ^ 8 ≤ (s.rm8 dst).toNat + b.toNat + c.toNat)

/-- `dst <- dst + b + c` with its flags, of width 16. -/
def Adds16 (s : State) (i : Instr) (dst : Rm16) (b : Word) (c : Bool) : Prop :=
  Answers i s fun t => Plain i s t ∧ ∃ v, Wrote16 s t dst v ∧ SumOf (s.rm16 dst) b c v s.flags t.flags
    ∧ flagGet t.flags .cf = decide (2 ^ 16 ≤ (s.rm16 dst).toNat + b.toNat + c.toNat)

/-- `dst <- dst - b - c` with its flags, of width 8 (R263, R264). -/
def Subs8 (s : State) (i : Instr) (dst : Rm8) (b : Byte) (c : Bool) : Prop :=
  Answers i s fun t => Plain i s t ∧ ∃ v, Wrote8 s t dst v ∧ DifferenceOf (s.rm8 dst) b c v s.flags t.flags
    ∧ flagGet t.flags .cf = decide ((s.rm8 dst).toNat < b.toNat + c.toNat)

/-- `dst <- dst - b - c` with its flags, of width 16. -/
def Subs16 (s : State) (i : Instr) (dst : Rm16) (b : Word) (c : Bool) : Prop :=
  Answers i s fun t => Plain i s t ∧ ∃ v, Wrote16 s t dst v ∧ DifferenceOf (s.rm16 dst) b c v s.flags t.flags
    ∧ flagGet t.flags .cf = decide ((s.rm16 dst).toNat < b.toNat + c.toNat)

/-- The flags of `a - b`, and no operand written: CMP (R265). -/
def Compares {w : Nat} (s : State) (i : Instr) (a b : BitVec w) : Prop :=
  Answers i s fun t => Plain i s t ∧ SameRegsBut [] s t ∧ SameMem s t
    ∧ (∃ v, DifferenceOf a b false v s.flags t.flags) ∧ flagGet t.flags .cf = decide (a.toNat < b.toNat)

/-- `dst <- v` with the flags of a logical result, of width 8 (R321-R323). -/
def Logic8 (s : State) (i : Instr) (dst : Rm8) (v : Byte) : Prop :=
  Answers i s fun t => Plain i s t ∧ Wrote8 s t dst v ∧ LogicFlagsOf v s.flags t.flags

/-- `dst <- v` with the flags of a logical result, of width 16. -/
def Logic16 (s : State) (i : Instr) (dst : Rm16) (v : Word) : Prop :=
  Answers i s fun t => Plain i s t ∧ Wrote16 s t dst v ∧ LogicFlagsOf v s.flags t.flags

/-- The flags of a logical result, and no operand written: TEST (R324). -/
def Tests {w : Nat} (s : State) (i : Instr) (v : BitVec w) : Prop :=
  Answers i s fun t => Plain i s t ∧ SameRegsBut [] s t ∧ SameMem s t ∧ LogicFlagsOf v s.flags t.flags

/-- E of width 8 is written with a value as `P` says, and the flags are as `P` says. -/
def Unary8 (s : State) (i : Instr) (e : Rm8) (P : Byte → Byte → Word → Word → Prop) : Prop :=
  Answers i s fun t => Plain i s t ∧ ∃ v, Wrote8 s t e v ∧ P (s.rm8 e) v s.flags t.flags

/-- E of width 16 is written with a value as `P` says, and the flags are as `P` says. -/
def Unary16 (s : State) (i : Instr) (e : Rm16) (P : Word → Word → Word → Word → Prop) : Prop :=
  Answers i s fun t => Plain i s t ∧ ∃ v, Wrote16 s t e v ∧ P (s.rm16 e) v s.flags t.flags

/-- INC: the sum with 1, CF kept (R266). -/
def Incremented {w : Nat} (a v : BitVec w) (fl fl' : Word) : Prop :=
  SumOf a 1#w false v fl fl' ∧ flagGet fl' .cf = flagGet fl .cf

/-- DEC: the difference with 1, CF kept (R268). -/
def Decremented {w : Nat} (a v : BitVec w) (fl fl' : Word) : Prop :=
  DifferenceOf a 1#w false v fl fl' ∧ flagGet fl' .cf = flagGet fl .cf

/-- NEG: the difference from 0; CF says that the operand is not 0 (R270). -/
def Negated {w : Nat} (a v : BitVec w) (fl fl' : Word) : Prop :=
  DifferenceOf 0#w a false v fl fl' ∧ flagGet fl' .cf = decide (a.toNat ≠ 0)

/-- NOT: every bit complemented, no flag written (R325). -/
def Complemented {w : Nat} (a v : BitVec w) (fl fl' : Word) : Prop := v = ~~~a ∧ fl' = fl

/-- CF and OF are both `b`, and the flags outside the six arithmetic ones are kept: the flags of a multiplication
(R271-R273). -/
def MulFlagsOf (b : Bool) (fl fl' : Word) : Prop :=
  flagGet fl' .cf = b ∧ flagGet fl' .of = b ∧ KeptFlags arithFlags fl fl'

/-! ## Divisions and adjustments -/

/-- A signed quotient fits width `w`; the most negative value does only under `IDIV_MIN_OK` (R275). -/
abbrev idivFits (c : Cfg) (w : Nat) (q : Int) : Prop :=
  (if c.idivMinOk then -(2 ^ (w - 1)) else -(2 ^ (w - 1)) + 1) ≤ q ∧ q < 2 ^ (w - 1)

/-- The return address of a divide error (R481). -/
def divErrorReturn (s : State) (i : Instr) : Word :=
  match s.cfg.divErrReturn with
  | .next => s.ipNext i
  | .current => s.ip

/-- The base of AAM and AAD (R280, R281). -/
def aamBase (s : State) (b : Byte) : Nat := if s.cfg.aamdUseImm then b.toNat else 10

/-- The low digit of AL is adjusted (R276-R279). -/
def lowAdjusts (s : State) : Bool := decide (9 < (s.reg8 .al).toNat % 16) || flagGet s.flags .af

/-- The high digit of AL is adjusted (R276, R277). -/
def highAdjusts (s : State) : Bool := decide (0x99 < (s.reg8 .al).toNat) || flagGet s.flags .cf

/-! ## Shifts -/

/-- The result and CF of a shift or rotate by `n ≥ 1` places, in closed form (R327-R333). -/
def ShiftedTo {w : Nat} (op : ShiftOp) (x : BitVec w) (cf : Bool) (n : Nat) (res : BitVec w) (cf' : Bool) : Prop :=
  match op with
  | .rol => res = x.rotateLeft n ∧ cf' = res.getLsbD 0
  | .ror => res = x.rotateRight n ∧ cf' = res.getLsbD (w - 1)
  | .rcl => BitVec.cons cf' res = (BitVec.cons cf x).rotateLeft n
  | .rcr => BitVec.cons cf' res = (BitVec.cons cf x).rotateRight n
  | .shl => res = x <<< n ∧ cf' = (decide (n ≤ w) && x.getLsbD (w - n))
  | .shr => res = x >>> n ∧ cf' = x.getLsbD (n - 1)
  | .sar => res = x.sshiftRight n ∧ cf' = if n ≤ w then x.getLsbD (n - 1) else x.getLsbD (w - 1)

/-- OF after a shift by one place (R327-R333). -/
def overflowOfOne {w : Nat} (op : ShiftOp) (x res : BitVec w) (cf' : Bool) : Bool :=
  match op with
  | .rol | .rcl | .shl => res.getLsbD (w - 1) ^^ cf'
  | .ror | .rcr => res.getLsbD (w - 1) ^^ res.getLsbD (w - 2)
  | .shr => x.getLsbD (w - 1)
  | .sar => false

/-- The flags a shift or rotate may write (R327-R333). -/
def shiftWrites : ShiftOp → List Flag
  | .rol | .ror | .rcl | .rcr => [.cf, .of]
  | .shl | .shr | .sar => arithFlags

/-- The result and flags of a shift by `n ≥ 1`: OF is a free value for `n ≥ 2`, AF after a shift is one too. -/
def ShiftFlagsOf {w : Nat} (op : ShiftOp) (x : BitVec w) (n : Nat) (res : BitVec w) (fl fl' : Word) : Prop :=
  ShiftedTo op x (flagGet fl .cf) n res (flagGet fl' .cf)
    ∧ (n = 1 → flagGet fl' .of = overflowOfOne op x res (flagGet fl' .cf))
    ∧ (op = .shl ∨ op = .shr ∨ op = .sar → SzpOf res fl') ∧ KeptFlags (shiftWrites op) fl fl'

/-- A shift of E of width 8 by the raw count: nothing but IP changes where the masked count is 0 (R326). -/
def Shifts8 (s : State) (i : Instr) (op : ShiftOp) (e : Rm8) (raw : Byte) : Prop :=
  Answers i s fun t => Plain i s t ∧
    if (raw &&& s.cfg.shiftCountMask).toNat = 0 then SameData s t
    else ∃ v, Wrote8 s t e v ∧ ShiftFlagsOf op (s.rm8 e) (raw &&& s.cfg.shiftCountMask).toNat v s.flags t.flags

/-- A shift of E of width 16 by the raw count. -/
def Shifts16 (s : State) (i : Instr) (op : ShiftOp) (e : Rm16) (raw : Byte) : Prop :=
  Answers i s fun t => Plain i s t ∧
    if (raw &&& s.cfg.shiftCountMask).toNat = 0 then SameData s t
    else ∃ v, Wrote16 s t e v ∧ ShiftFlagsOf op (s.rm16 e) (raw &&& s.cfg.shiftCountMask).toNat v s.flags t.flags

/-! ## Data transfer -/

/-- `dst <- v` of width 8, no flag written (R200-R203). -/
def Moves8 (s : State) (i : Instr) (dst : Rm8) (v : Byte) : Prop :=
  Answers i s fun t => Plain i s t ∧ t.flags = s.flags ∧ Wrote8 s t dst v

/-- `dst <- v` of width 16, no flag written. -/
def Moves16 (s : State) (i : Instr) (dst : Rm16) (v : Word) : Prop :=
  Answers i s fun t => Plain i s t ∧ t.flags = s.flags ∧ Wrote16 s t dst v

/-- A segment register is loaded; SS also sets `shadow` where the machine has one (R205, R51). -/
def LoadsSeg (s t : State) (i : Instr) (r : SReg) (v : Word) : Prop :=
  SameOutside s t ∧ t.halted = s.halted ∧ t.cur = s.cur ∧ s.faults <+: t.faults ∧ t.ip = s.ipNext i
    ∧ (∀ q, t.sreg q = if q = r then v else s.sreg q)
    ∧ t.shadow = (s.shadow || (r == .ss && decide (s.cfg.intShadow ≠ .none)))

/-- A word is pushed: SP is 2 lower and the word is stored there (R206). -/
def Pushes (s : State) (i : Instr) (v : Word) : Prop :=
  Answers i s fun t => Plain i s t ∧ t.flags = s.flags ∧ SetWordReg s t .sp (s.reg16 .sp - 2#16)
    ∧ Stored16 s t s.segs.ss (s.reg16 .sp - 2#16) v

/-- The word at SS:(SP + k), its low byte first (R207, R105). -/
def stackWord (s : State) (k : Word) : Word :=
  s.mem8 s.segs.ss (s.reg16 .sp + k + 1#16) ++ s.mem8 s.segs.ss (s.reg16 .sp + k)

/-- The word at SS:SP (R207). -/
def topWord (s : State) : Word := stackWord s 0#16

/-- The memory after the listed words are stored one below the other, from `top` down (R206). -/
def storesDown (s : State) (sg top : Word) : List Word → State
  | [] => s
  | v :: vs => storesDown (s.writeMem16 sg (top - 2#16) v) sg (top - 2#16) vs

/-- The memory after `n` display words are copied: each is read one word below the last at `sg:bp` and stored one word below
the last at `sg:top` (R409). -/
def copiesDown (s : State) (sg bp top : Word) : Nat → State
  | 0 => s
  | n + 1 => copiesDown (s.writeMem16 sg (top - 2#16) (s.mem16 sg (bp - 2#16))) sg (bp - 2#16) (top - 2#16) n

/-! ## Decode gaps -/

/-- The group forms that the decode table does not take: opcode and reg field (R180). -/
def groupGap (b : Byte) (reg : BitVec 3) : Bool :=
  (b ∈ [0x8F#8, 0xC6#8, 0xC7#8] ∧ reg ≠ 0#3)
    || (b ∈ [0xC0#8, 0xC1#8, 0xD0#8, 0xD1#8, 0xD2#8, 0xD3#8] ∧ reg = 6#3)
    || (b ∈ [0xF6#8, 0xF7#8] ∧ reg = 1#3)
    || (b = 0xFE#8 ∧ 2 ≤ reg.toNat) || (b = 0xFF#8 ∧ reg = 7#3)
    || (b = 0x8C#8 ∧ 4 ≤ reg.toNat) || (b = 0x8E#8 ∧ (reg = 1#3 ∨ 4 ≤ reg.toNat))

/-! ## Ports -/

/-- The state has the devices of `u`, and everything that a port write cannot reach is as in `s` (R131, R132). -/
structure PortWritten (s u t : State) : Prop where
  ic : t.ic = u.ic
  timers : t.timers = u.timers
  ppu : t.ppu = u.ppu
  apu : t.apu = u.apu
  banks : t.banks = u.banks
  ram : t.ram = s.ram
  rom : t.rom = s.rom
  save : t.save = s.save
  rem : t.rem = s.rem
  elapsed : t.elapsed = s.elapsed
  mode : t.mode = s.mode
  samples : t.samples = s.samples
  raised : t.raised = s.raised
  trace : t.trace = s.trace
  input : t.input = s.input
  cfg : t.cfg = s.cfg
  ext : t.ext = s.ext
  diag : t.diag = s.diag
  halted : t.halted = s.halted
  shadow : t.shadow = s.shadow
  cur : t.cur = s.cur
  faults : s.faults <+: t.faults
  segs : t.segs = s.segs
  flags : t.flags = s.flags

/-! ## Strings -/

/-- An index register after an element of `n` bytes (R360). -/
def stepped (s : State) (r : Reg16) (n : Word) : Word :=
  if flagGet s.flags .df then s.reg16 r - n else s.reg16 r + n

/-- The segment of a string source: DS, or the override (R360). -/
def sourceSeg (s : State) : Word :=
  match s.cur.segOvr with
  | none => s.segs.ds
  | some r => s.sreg r

/-- A string instruction whose element does `P`, CX and IP apart: without a repeat prefix one element; with one, no element
where CX is 0, else one element and CX is 1 lower, and IP moves on only where the instruction ends (R361, R369). -/
def StringRuns (s : State) (i : Instr) (P : State → Prop) (stops : RepKind → Word → Bool) : Prop :=
  (s.cur.rep = none → Answers i s fun t => P t ∧ t.reg16 .cx = s.reg16 .cx ∧ t.ip = s.ipNext i)
    ∧ (∀ k, s.cur.rep = some k → s.reg16 .cx = 0#16 → Answers i s fun t => Plain i s t ∧ SameData s t)
    ∧ ∀ k, s.cur.rep = some k → s.reg16 .cx ≠ 0#16 → Answers i s fun t =>
        P t ∧ t.reg16 .cx = s.reg16 .cx - 1#16
          ∧ t.ip = if t.reg16 .cx = 0#16 ∨ stops k t.flags = true then s.ipNext i else s.ip

/-- What every string element leaves alone; `l` are the index registers, and CX is spoken of by `StringRuns`. -/
def ElementFrame (l : List Reg16) (s t : State) : Prop := SameCore s t ∧ t.segs = s.segs ∧ SameRegsBut (.cx :: l) s t

/-! ## Control transfer -/

/-- Control goes to `ip` in the same code segment, and nothing else changes. -/
def JumpsTo (s : State) (i : Instr) (ip : Word) : Prop :=
  Answers i s fun t => SameCore s t ∧ SameData s t ∧ t.segs = s.segs ∧ t.ip = ip

/-- As `JumpsTo`, and the listed words are pushed first. -/
def CallsTo (s : State) (i : Instr) (pushed : List Word) (segs : Segs) (ip : Word) : Prop :=
  Answers i s fun t => SameCore s t ∧ t.flags = s.flags ∧ t.segs = segs ∧ t.ip = ip
    ∧ SetWordReg s t .sp (s.reg16 .sp - BitVec.ofNat 16 (2 * pushed.length))
    ∧ MemAs (storesDown s s.segs.ss (s.reg16 .sp) pushed) t

/-- SP is raised by `n`, control goes to `ip` in the segments `segs`, and nothing else changes. -/
def ReturnsTo (s : State) (i : Instr) (n : Word) (segs : Segs) (ip : Word) : Prop :=
  Answers i s fun t => SameCore s t ∧ t.flags = s.flags ∧ SameMem s t ∧ t.segs = segs ∧ t.ip = ip
    ∧ SetWordReg s t .sp (s.reg16 .sp + n)

/-- Control goes to `cs:ip`, and nothing else changes. -/
def JumpsFar (s : State) (i : Instr) (cs ip : Word) : Prop :=
  Answers i s fun t => SameCore s t ∧ SameData s t ∧ t.segs = { s.segs with cs := cs } ∧ t.ip = ip

/-- The state after an interrupt entry (R490) from `s` with vector `n` and return offset `ret`: FLAGS, CS and the return
offset are pushed, IF and TF cleared, IP and CS read from entry `n` of the vector table after the pushes, `halted` cleared. -/
structure Entered (s : State) (n : Byte) (ret : Word) (t : State) : Prop where
  outside : SameOutside s t
  shadow : t.shadow = s.shadow
  cur : t.cur = { s.cur with entered := true }
  faults : s.faults <+: t.faults
  halted : t.halted = false
  tf : flagGet t.flags .tf = false
  iff : flagGet t.flags .if_ = false
  flags : KeptFlags [.tf, .if_] s.flags t.flags
  sp : SetWordReg s t .sp (s.reg16 .sp - 6#16)
  mem : MemAs (storesDown s s.segs.ss (s.reg16 .sp) [s.flags, s.segs.cs, ret]) t
  ip : t.ip = t.mem16 0#16 (BitVec.ofNat 16 (4 * n.toNat))
  segs : t.segs = { s.segs with cs := t.mem16 0#16 (BitVec.ofNat 16 (4 * n.toNat + 2)) }

/-- The instruction enters vector `n` with return offset `ret`. -/
def Enters (s : State) (i : Instr) (n : Byte) (ret : Word) : Prop := Answers i s (Entered s n ret)

/-- A conditional jump: taken under `c`, else falling through (R403, R404). -/
def JumpsIf (s : State) (i : Instr) (c : Bool) (rel : Byte) : Prop :=
  JumpsTo s i (if c then s.ipNext i + rel.signExtend 16 else s.ipNext i)

/-! ## Steps -/

/-- The state in which the instruction of an execution step starts: `shadow` is reset (R470). -/
def started (s : State) : State := { s with shadow := false }

/-- An execution step can start: the CPU runs, no source is taken, and no decode state is kept (R470, R471). -/
structure Runs (s : State) : Prop where
  idle : s.cur = {}
  running : s.halted = false
  quiet : s.flag .if_ = false ∨ s.shadow = true ∨ s.highestPending = none

/-- The state after the listed prefixes are read, the bytes of the code segment fetched one by one (R152). -/
def readPrefixes (s : State) : List Instr → State
  | [] => s
  | p :: ps =>
    match exec p (s.noteCode 1) with
    | .next t => readPrefixes t ps
    | _ => s

/-- The segment that a prefix selects (R455). -/
def overrideOf : Instr → Option SReg
  | .pfxEs => some .es
  | .pfxCs => some .cs
  | .pfxSs => some .ss
  | .pfxDs => some .ds
  | _ => none

/-- The repeat prefix (R456). -/
def repeatOf : Instr → Option RepKind
  | .pfxRepne => some .repne
  | .pfxRep => some .rep
  | _ => none

/-- The decode state after the listed prefixes: the last override and the last repeat prefix win (R152). -/
def prefixCtx (ps : List Instr) : StepCtx where
  segOvr := (ps.filterMap overrideOf).getLast?
  rep := (ps.filterMap repeatOf).getLast?
  lock := ps.contains .pfxLock
  pfxLen := ps.length
  entered := false

/-- The registers, flags, CPU control state, memories and mapper are unchanged: what a halted step leaves alone. -/
structure SameCpu (s t : State) : Prop where
  regs : t.regs = s.regs
  unset : t.unset = s.unset
  segs : t.segs = s.segs
  ip : t.ip = s.ip
  flags : t.flags = s.flags
  halted : t.halted = s.halted
  shadow : t.shadow = s.shadow
  diag : t.diag = s.diag
  faults : t.faults = s.faults
  banks : t.banks = s.banks
  ram : t.ram = s.ram
  rom : t.rom = s.rom
  save : t.save = s.save
  cfg : t.cfg = s.cfg
  ext : t.ext = s.ext

/-! ## Segment registers -/

/-- The instructions that write CS: the far transfers and those that can enter an interrupt (R35). -/
def writesCs : Instr → Bool
  | .jmpAp _ _ | .jmpMp _ | .callAp _ _ | .callMp _ | .retf | .retfIw _ | .iret | .intIb _ | .int3 | .into => true
  | .divEb _ | .divEv _ | .idivEb _ | .idivEv _ | .aamIb _ | .boundGvMa _ _ => true
  | _ => false

/-- The instructions that write ES, SS and DS (R35). -/
def writesData : SReg → Instr → Bool
  | .es, .movEsEw _ => true
  | .es, .popEs => true
  | .es, .lesGvMp _ _ => true
  | .ss, .movSsEw _ => true
  | .ss, .popSs => true
  | .ds, .movDsEw _ => true
  | .ds, .popDs => true
  | .ds, .ldsGvMp _ _ => true
  | _, _ => false

/-! ## Devices -/

/-- A timer unit after `n` ticks (R541). -/
def timerAfter (fire : TimerFire) : Nat → Timer → Timer
  | 0, t => t
  | n + 1, t => timerAfter fire n (timerStep fire t).1

/-- Whether the tick after `n` ticks underflows (R541). -/
def firesAfter (fire : TimerFire) (n : Nat) (t : Timer) : Bool := (timerStep fire (timerAfter fire n t)).2

/-- The PPU's counters are in range, and its mode is the one its position has (R561). -/
def PpuOk (o : OpenCfg) (p : Ppu) : Prop :=
  p.line < o.totalLines ∧ p.dot < o.lineDots
    ∧ p.mode = (if o.visibleLines ≤ p.line then .vblank else if o.visibleDots ≤ p.dot then .hblank else .visible)

/-- The sprites drawn on row `y`: of those that cover it, the first `SPRITES_PER_LINE` in table order (R566, R570). -/
def drawnSprites (o : OpenCfg) (ram : Memory) (y : Nat) : List Nat :=
  ((List.range o.spriteCount).filter fun i => Config.spriteCovers ram i y).take o.spritesPerLine

/-- The pixel at column `x` of row `y` (R566, R568): the first drawn sprite whose index there is not 0, where it is over the
background or the background index is 0; else the background, of index 0 where it is off. -/
def pixelAt (o : OpenCfg) (pctl : Byte) (ram : Memory) (y x : Nat) : Nat :=
  let b := if pctl.getLsbD 0 then Config.bgIndex ram y x else 0
  let top := if pctl.getLsbD 1 then (drawnSprites o ram y).find? fun i => Config.sprIndex ram i y x != 0 else none
  match top with
  | some i =>
    if Config.sprOver ram i = true ∨ b = 0 then Config.sprColor ram (Config.sprIndex ram i y x) else Config.bgColor ram b
  | none => Config.bgColor ram b

/-- The output of a channel (R583). -/
def outputOf (k : ChannelKind) (c : Channel) : Int :=
  if c.ctrl.getLsbD 0 = false then 0
  else
    match k with
    | .square => if c.phase.toNat < c.ctrl.toNat / 2 % 8 then c.vol.toNat else 0
    | .noise => if c.phase.toNat % 2 = 0 then c.vol.toNat else 0
    | .pcm => c.phase.toNat

/-- The dots since the start of the frame (R565). -/
def framePosition (o : OpenCfg) (p : Ppu) : Nat := p.line * o.lineDots + p.dot

/-- The ticks that a list of cycle amounts converts to, and the last remainder (R622). -/
def convertAll (r : Ratio) : List Nat → Nat → Nat × Nat
  | [], rem => (0, rem)
  | e :: es, rem =>
    let one := convertCycles e r rem
    let rest := convertAll r es one.2
    (one.1 + rest.1, rest.2)

/-! ## The invariant -/

/-- A channel's phase is in its range: a step of 8 for a square, a byte for a sample (R580). -/
def phaseOk (k : ChannelKind) (c : Channel) : Prop :=
  match k with
  | .square => c.phase.toNat < 8
  | .noise => True
  | .pcm => c.phase.toNat < 256

/-- What holds between any two steps (R39, R51, R54, R112, R521, R561, R580, R622; 00_scope.md R10). -/
structure Inv (s : State) : Prop where
  cfg : s.cfg.wf = true
  ext : s.ext.wf s.cfg = true
  ram : Memory.wf (ramUnlisted s.cfg) s.cfg.ramSize s.ram = true
  rom : Memory.wf (some 0#8) s.rom.len s.rom.cells = true
  save : Memory.wf (some 0#8) s.save.size s.save.cells = true
  flags : s.flags &&& ~~~flagsWmask = s.cfg.flagsFixedOne
  shadow : s.cfg.intShadow = .none → s.shadow = false
  marks : ∀ r, Reg16.halves r = none → (s.unset.get r).lo = (s.unset.get r).hi
  enable : s.ic.enable &&& icMask s.ext = s.ic.enable
  pending : s.ic.pending &&& icMask s.ext = s.ic.pending
  raised : s.raised &&& icMask s.ext = s.raised
  timers : s.timers.length = s.cfg.timerCount
  apu : s.apu.length = s.ext.channels.length
  phases : ∀ p ∈ s.ext.channels.zip s.apu, phaseOk p.1.kind p.2
  ppu : PpuOk s.ext s.ppu
  remPpu : s.rem.ppu < s.ext.dotsPerCycle.q
  remApu : s.rem.apu < s.ext.apuTicksPerCycle.q
  remTimer : s.rem.timer < s.ext.timerClock.q
  cur : s.cur = {}

end Sys2Proof.Machine
end

