-- ==== Sys2Proof/Machine/Reads.lean ====
section
/-! DEFINITION. The reads of general registers and memory that each instruction makes, written out from the rules of its form,
and the entries of the fault record that they leave (10_state.md R53, R70, R80).  The order is the model's (DESIGN CHOICE,
Log 22). -/

namespace Sys2Proof.Machine

/-! ## Reads -/

/-- A read of a general register or of memory by an instruction. -/
inductive Read where
  /-- an 8-bit register -/
  | half (q : Reg8)
  /-- a 16-bit register -/
  | word (r : Reg16)
  /-- a byte of memory -/
  | byte (sg off : Word)
  /-- a word of memory, its low byte first (R105) -/
  | pair (sg off : Word)
deriving DecidableEq, Repr

/-- The entries that a read records, in the state `s` it is made in. -/
def entriesOf (s : State) : Read → List FaultRecord
  | .half q => unsetByteReads s q
  | .word r => unsetWordReads s r
  | .byte sg off => placeReads s (s.locate (phys sg off))
  | .pair sg off => placeReads s (s.locate (phys sg off)) ++ placeReads s (s.locate (phys sg (off + 1#16)))

/-- The entries that the listed reads record. -/
def entries (s : State) (l : List Read) : List FaultRecord := l.flatMap (entriesOf s)

/-- The base registers that an effective address is computed from (R163). -/
def addrOf : Mem → List Read
  | .direct _ => []
  | .based b _ => (baseRegs b).map .word

/-- The reads that resolve E of width 8. -/
def addr8 : Rm8 → List Read
  | .reg _ => []
  | .mem m => addrOf m

/-- The reads that resolve E of width 16. -/
def addr16 : Rm16 → List Read
  | .reg _ => []
  | .mem m => addrOf m

/-- The read of E of width 8. -/
def value8 (s : State) : Rm8 → List Read
  | .reg q => [.half q]
  | .mem m => [.byte (s.eaSeg m) (s.eaOff m)]

/-- The read of E of width 16. -/
def value16 (s : State) : Rm16 → List Read
  | .reg r => [.word r]
  | .mem m => [.pair (s.eaSeg m) (s.eaOff m)]

/-- The reads of two words at a memory operand (R221, R394, R411). -/
def farReads (s : State) (m : Mem) : List Read :=
  addrOf m ++ [.pair (s.eaSeg m) (s.eaOff m), .pair (s.eaSeg m) (s.eaOff m + 2#16)]

/-- The reads of pops: SP, and the words the listed distances above it (R207). -/
def poppedReads (s : State) (l : List Word) : List Read :=
  .word .sp :: l.map fun k => .pair s.segs.ss (s.reg16 .sp + k)

/-- The reads of a string instruction with the reads `l` of one element: under a repeat prefix CX first, and no element where
it is 0 (R361). -/
def elementReads (s : State) (l : List Read) : List Read :=
  match s.cur.rep with
  | none => l
  | some _ => if s.reg16 .cx = 0#16 then [.word .cx] else .word .cx :: l

/-- The reads of an instruction in the state it starts in, without those of an interrupt entry and of ENTER's display. -/
def operandReads (s : State) : Instr → List Read
  | .addEbGb e g | .orEbGb e g | .adcEbGb e g | .sbbEbGb e g | .andEbGb e g | .subEbGb e g | .xorEbGb e g
  | .cmpEbGb e g | .testEbGb e g | .xchgEbGb e g => addr8 e ++ value8 s e ++ [.half g]
  | .addEvGv e g | .orEvGv e g | .adcEvGv e g | .sbbEvGv e g | .andEvGv e g | .subEvGv e g | .xorEvGv e g
  | .cmpEvGv e g | .testEvGv e g | .xchgEvGv e g => addr16 e ++ value16 s e ++ [.word g]
  | .addGbEb g e | .orGbEb g e | .adcGbEb g e | .sbbGbEb g e | .andGbEb g e | .subGbEb g e | .xorGbEb g e
  | .cmpGbEb g e => addr8 e ++ [.half g] ++ value8 s e
  | .addGvEv g e | .orGvEv g e | .adcGvEv g e | .sbbGvEv g e | .andGvEv g e | .subGvEv g e | .xorGvEv g e
  | .cmpGvEv g e => addr16 e ++ [.word g] ++ value16 s e
  | .addAlIb _ | .orAlIb _ | .adcAlIb _ | .sbbAlIb _ | .andAlIb _ | .subAlIb _ | .xorAlIb _ | .cmpAlIb _
  | .testAlIb _ => [.half .al]
  | .addAxIw _ | .orAxIw _ | .adcAxIw _ | .sbbAxIw _ | .andAxIw _ | .subAxIw _ | .xorAxIw _ | .cmpAxIw _
  | .testAxIw _ => [.word .ax]
  | .addEbIb e _ | .orEbIb e _ | .adcEbIb e _ | .sbbEbIb e _ | .andEbIb e _ | .subEbIb e _ | .xorEbIb e _
  | .cmpEbIb e _ | .addEbIbAlias e _ | .orEbIbAlias e _ | .adcEbIbAlias e _ | .sbbEbIbAlias e _ | .andEbIbAlias e _
  | .subEbIbAlias e _ | .xorEbIbAlias e _ | .cmpEbIbAlias e _ | .testEbIb e _ => addr8 e ++ value8 s e
  | .addEvIw e _ | .orEvIw e _ | .adcEvIw e _ | .sbbEvIw e _ | .andEvIw e _ | .subEvIw e _ | .xorEvIw e _
  | .cmpEvIw e _ | .addEvIbs e _ | .orEvIbs e _ | .adcEvIbs e _ | .sbbEvIbs e _ | .andEvIbs e _ | .subEvIbs e _
  | .xorEvIbs e _ | .cmpEvIbs e _ | .testEvIw e _ => addr16 e ++ value16 s e
  | .rolEbIb e _ | .rorEbIb e _ | .rclEbIb e _ | .rcrEbIb e _ | .shlEbIb e _ | .shrEbIb e _ | .sarEbIb e _ =>
    addr8 e ++ value8 s e
  | .rolEvIb e _ | .rorEvIb e _ | .rclEvIb e _ | .rcrEvIb e _ | .shlEvIb e _ | .shrEvIb e _ | .sarEvIb e _ =>
    addr16 e ++ value16 s e
  | .incEb e | .decEb e | .negEb e | .notEb e | .rolEb1 e | .rorEb1 e | .rclEb1 e | .rcrEb1 e | .shlEb1 e
  | .shrEb1 e | .sarEb1 e => addr8 e ++ value8 s e
  | .incEv e | .decEv e | .negEv e | .notEv e | .rolEv1 e | .rorEv1 e | .rclEv1 e | .rcrEv1 e | .shlEv1 e
  | .shrEv1 e | .sarEv1 e | .movEsEw e | .movSsEw e | .movDsEw e | .jmpEv e => addr16 e ++ value16 s e
  | .rolEbCl e | .rorEbCl e | .rclEbCl e | .rcrEbCl e | .shlEbCl e | .shrEbCl e | .sarEbCl e =>
    .half .cl :: (addr8 e ++ value8 s e)
  | .rolEvCl e | .rorEvCl e | .rclEvCl e | .rcrEvCl e | .shlEvCl e | .shrEvCl e | .sarEvCl e =>
    .half .cl :: (addr16 e ++ value16 s e)
  | .incR16 r | .decR16 r => [.word r]
  | .mulEb e | .imulEb e => addr8 e ++ [.half .al] ++ value8 s e
  | .divEb e | .idivEb e => addr8 e ++ [.word .ax] ++ value8 s e
  | .mulEv e | .imulEv e => addr16 e ++ [.word .ax] ++ value16 s e
  | .divEv e | .idivEv e => addr16 e ++ [.word .dx, .word .ax] ++ value16 s e
  | .imulGvEvIw _ e _ | .imulGvEvIbs _ e _ => addr16 e ++ value16 s e
  | .aamIb b => if aamBase s b = 0 then [] else [.half .al]
  | .aadIb _ => [.word .ax]
  | .daa | .das | .cbw => [.half .al]
  | .aaa | .aas => if lowAdjusts s then [.word .ax] else [.half .al]
  | .cwd => [.word .ax]
  | .movEbGb e g => addr8 e ++ [.half g]
  | .movEvGv e g => addr16 e ++ [.word g]
  | .movGbEb _ e => addr8 e ++ value8 s e
  | .movGvEv _ e => addr16 e ++ value16 s e
  | .movEbIb e _ => addr8 e
  | .movEvIw e _ => addr16 e
  | .movEwEs e | .movEwCs e | .movEwSs e | .movEwDs e => addr16 e
  | .movAlOb o => [.byte (sourceSeg s) o]
  | .movAxOw o => [.pair (sourceSeg s) o]
  | .movObAl _ | .outIbAl _ => [.half .al]
  | .movOwAx _ | .outIbAx _ => [.word .ax]
  | .movR8Ib _ _ | .movR16Iw _ _ => []
  | .leaGvM _ m => addrOf m
  | .lesGvMp _ m | .ldsGvMp _ m => farReads s m
  | .xchgR16Ax r => [.word .ax, .word r]
  | .xlat => [.word .bx, .half .al, .byte (sourceSeg s) (s.reg16 .bx + (s.reg8 .al).setWidth 16)]
  | .inAlIb _ | .inAxIb _ => []
  | .inAlDx | .inAxDx => [.word .dx]
  | .outDxAl => [.word .dx, .half .al]
  | .outDxAx => [.word .dx, .word .ax]
  | .sahf => [.half .ah]
  | .pushR16 r => if r = .sp ∧ s.cfg.pushSpNew = true then [.word .sp] else [.word r, .word .sp]
  | .pushEv e | .callEv e => addr16 e ++ value16 s e ++ [.word .sp]
  | .pushIw _ | .pushIbs _ => [.word .sp]
  | .callRel16 _ => [.word .sp]
  | .callAp _ _ => [.word .sp]
  | .pushEs | .pushCs | .pushSs | .pushDs | .pushf => [.word .sp]
  | .pusha => [.word .sp, .word .ax, .word .sp, .word .cx, .word .dx, .word .bx, .word .bp, .word .si, .word .di]
  | .popR16 _ | .retIw _ => poppedReads s [0#16]
  | .popEs | .popSs | .popDs | .popf | .ret => poppedReads s [0#16]
  | .popEv e => addr16 e ++ poppedReads s [0#16]
  | .popa => poppedReads s [0#16, 2#16, 4#16, 8#16, 10#16, 12#16, 14#16]
  | .retf => poppedReads s [0#16, 2#16]
  | .retfIw _ => poppedReads s [0#16, 2#16]
  | .iret => poppedReads s [0#16, 2#16, 4#16]
  | .enterIwIb _ b => [.word .bp, .word .sp] ++ if 2 ≤ b.toNat % 32 then [.word .bp] else []
  | .leave => [.word .bp, .pair s.segs.ss (s.reg16 .bp)]
  | .jmpMp m => farReads s m
  | .callMp m => farReads s m ++ [.word .sp]
  | .boundGvMa g m => farReads s m ++ [.word g]
  | .loopRel8 _ | .loopzRel8 _ | .loopnzRel8 _ | .jcxzRel8 _ => [.word .cx]
  | .movsb => elementReads s [.word .si, .byte (sourceSeg s) (s.reg16 .si), .word .di]
  | .cmpsb => elementReads s [.word .si, .byte (sourceSeg s) (s.reg16 .si), .word .di, .byte s.segs.es (s.reg16 .di)]
  | .scasb => elementReads s [.word .di, .byte s.segs.es (s.reg16 .di), .half .al]
  | .lodsb => elementReads s [.word .si, .byte (sourceSeg s) (s.reg16 .si)]
  | .stosb => elementReads s [.half .al, .word .di]
  | .insb => elementReads s [.word .dx, .word .di]
  | .outsb => elementReads s [.word .si, .byte (sourceSeg s) (s.reg16 .si), .word .dx]
  | .movsw => elementReads s [.word .si, .pair (sourceSeg s) (s.reg16 .si), .word .di]
  | .cmpsw => elementReads s [.word .si, .pair (sourceSeg s) (s.reg16 .si), .word .di, .pair s.segs.es (s.reg16 .di)]
  | .scasw => elementReads s [.word .di, .pair s.segs.es (s.reg16 .di), .word .ax]
  | .lodsw => elementReads s [.word .si, .pair (sourceSeg s) (s.reg16 .si)]
  | .stosw => elementReads s [.word .ax, .word .di]
  | .insw => elementReads s [.word .dx, .word .di]
  | .outsw => elementReads s [.word .si, .pair (sourceSeg s) (s.reg16 .si), .word .dx]
  | .joRel8 _ | .jnoRel8 _ | .jbRel8 _ | .jnbRel8 _ | .jzRel8 _ | .jnzRel8 _ | .jbeRel8 _ | .jaRel8 _ | .jsRel8 _
  | .jnsRel8 _ | .jpRel8 _ | .jnpRel8 _ | .jlRel8 _ | .jgeRel8 _ | .jleRel8 _ | .jgRel8 _ | .jmpRel8 _
  | .jmpRel16 _ | .intIb _ => []
  | .jmpAp _ _ => []
  | .esc _ _ _ => []
  | .pfxEs | .pfxCs | .pfxSs | .pfxDs | .pfxLock | .pfxRepne | .pfxRep | .nop | .wait | .lahf | .int3 | .into
  | .hlt | .cmc | .clc | .stc | .cli | .sti | .cld | .std => []

/-! ## What is recorded -/

/-- The vector that an instruction enters from the state `s`, where it enters one (R481). -/
def vectorTaken (s : State) : Instr → Option Byte
  | .intIb n => some n
  | .int3 => some 3#8
  | .into => if flagGet s.flags .of = true then some 4#8 else none
  | .boundGvMa r m =>
    if (s.reg16 r).toInt < (s.mem16 (s.eaSeg m) (s.eaOff m)).toInt
      ∨ (s.mem16 (s.eaSeg m) (s.eaOff m + 2#16)).toInt < (s.reg16 r).toInt then some 5#8 else none
  | .divEb e => if (s.rm8 e).toNat = 0 ∨ 2 ^ 8 ≤ (s.reg16 .ax).toNat / (s.rm8 e).toNat then some 0#8 else none
  | .divEv e =>
    if (s.rm16 e).toNat = 0 ∨ 2 ^ 16 ≤ ((s.reg16 .dx).toNat * 65536 + (s.reg16 .ax).toNat) / (s.rm16 e).toNat then some 0#8
    else none
  | .idivEb e =>
    if (s.rm8 e).toInt = 0 ∨ ¬idivFits s.cfg 8 ((s.reg16 .ax).toInt.tdiv (s.rm8 e).toInt) then some 0#8 else none
  | .idivEv e =>
    if (s.rm16 e).toInt = 0
      ∨ ¬idivFits s.cfg 16 (((s.reg16 .dx).toInt * 65536 + (s.reg16 .ax).toNat).tdiv (s.rm16 e).toInt) then some 0#8
    else none
  | .aamIb b => if aamBase s b = 0 then some 0#8 else none
  | _ => none

/-- The entries of an interrupt entry from `s` to `t` through vector `n`: SP, and the two words of the vector table, which
are read after the pushes (R490). -/
def entryEntries (s t : State) (n : Byte) : List FaultRecord :=
  entries s [.word .sp] ++ entries t [.pair 0#16 (BitVec.ofNat 16 (4 * n.toNat)), .pair 0#16 (BitVec.ofNat 16 (4 * n.toNat + 2))]

/-- The entries of ENTER's `n` display copies: each word is read one below the last at `sg:bp`, and stored one below the last
at `sg:top` before the next is read (R409). -/
def displayEntries (u : State) (sg bp top : Word) : Nat → List FaultRecord
  | 0 => []
  | n + 1 =>
    entries u [.pair sg (bp - 2#16)]
      ++ displayEntries (u.writeMem16 sg (top - 2#16) (u.mem16 sg (bp - 2#16))) sg (bp - 2#16) (top - 2#16) n

/-- The entries that an instruction records from the state `s`, where it leaves the state `t`. -/
def entriesOfInstr (i : Instr) (s t : State) : List FaultRecord :=
  entries s (operandReads s i)
    ++ (match vectorTaken s i with
        | some n => entryEntries s t n
        | none => [])
    ++ (match i with
        | .enterIwIb _ b =>
          displayEntries (storesDown s s.segs.ss (s.reg16 .sp) [s.reg16 .bp]) s.segs.ss (s.reg16 .bp) (s.reg16 .sp - 2#16)
            (b.toNat % 32 - 1)
        | _ => [])

end Sys2Proof.Machine
end

