-- ==== Sys2Proof/Certificates/Slice0/Obligations.lean ====
section
/-! DEFINITION. The statements about the model, one proposition each.  Their terms are those of Machine/Shapes.lean and
Machine/Reads.lean. -/

open Sys2Proof Sys2Proof.Machine

/-- ADD and ADC in every form (R261, R262): the exact sum of destination, source and, for ADC, CF. -/
def Obligations.AddAndAdcForms : Prop :=
  ∀ (s : State) (e : Rm8) (g : Reg8) (x : Rm16) (r : Reg16) (b : Byte) (v : Word),
    Adds8 s (.addEbGb e g) e (s.reg8 g) false
    ∧ Adds16 s (.addEvGv x r) x (s.reg16 r) false
    ∧ Adds8 s (.addGbEb g e) (.reg g) (s.rm8 e) false
    ∧ Adds16 s (.addGvEv r x) (.reg r) (s.rm16 x) false
    ∧ Adds8 s (.addAlIb b) (.reg .al) b false
    ∧ Adds16 s (.addAxIw v) (.reg .ax) v false
    ∧ Adds8 s (.addEbIb e b) e b false
    ∧ Adds16 s (.addEvIw x v) x v false
    ∧ Adds8 s (.addEbIbAlias e b) e b false
    ∧ Adds16 s (.addEvIbs x b) x (b.signExtend 16) false
    ∧ Adds8 s (.adcEbGb e g) e (s.reg8 g) (flagGet s.flags .cf)
    ∧ Adds16 s (.adcEvGv x r) x (s.reg16 r) (flagGet s.flags .cf)
    ∧ Adds8 s (.adcGbEb g e) (.reg g) (s.rm8 e) (flagGet s.flags .cf)
    ∧ Adds16 s (.adcGvEv r x) (.reg r) (s.rm16 x) (flagGet s.flags .cf)
    ∧ Adds8 s (.adcAlIb b) (.reg .al) b (flagGet s.flags .cf)
    ∧ Adds16 s (.adcAxIw v) (.reg .ax) v (flagGet s.flags .cf)
    ∧ Adds8 s (.adcEbIb e b) e b (flagGet s.flags .cf)
    ∧ Adds16 s (.adcEvIw x v) x v (flagGet s.flags .cf)
    ∧ Adds8 s (.adcEbIbAlias e b) e b (flagGet s.flags .cf)
    ∧ Adds16 s (.adcEvIbs x b) x (b.signExtend 16) (flagGet s.flags .cf)

/-- SUB and SBB in every form (R263, R264): the exact difference of destination, source and, for SBB, CF. -/
def Obligations.SubAndSbbForms : Prop :=
  ∀ (s : State) (e : Rm8) (g : Reg8) (x : Rm16) (r : Reg16) (b : Byte) (v : Word),
    Subs8 s (.subEbGb e g) e (s.reg8 g) false
    ∧ Subs16 s (.subEvGv x r) x (s.reg16 r) false
    ∧ Subs8 s (.subGbEb g e) (.reg g) (s.rm8 e) false
    ∧ Subs16 s (.subGvEv r x) (.reg r) (s.rm16 x) false
    ∧ Subs8 s (.subAlIb b) (.reg .al) b false
    ∧ Subs16 s (.subAxIw v) (.reg .ax) v false
    ∧ Subs8 s (.subEbIb e b) e b false
    ∧ Subs16 s (.subEvIw x v) x v false
    ∧ Subs8 s (.subEbIbAlias e b) e b false
    ∧ Subs16 s (.subEvIbs x b) x (b.signExtend 16) false
    ∧ Subs8 s (.sbbEbGb e g) e (s.reg8 g) (flagGet s.flags .cf)
    ∧ Subs16 s (.sbbEvGv x r) x (s.reg16 r) (flagGet s.flags .cf)
    ∧ Subs8 s (.sbbGbEb g e) (.reg g) (s.rm8 e) (flagGet s.flags .cf)
    ∧ Subs16 s (.sbbGvEv r x) (.reg r) (s.rm16 x) (flagGet s.flags .cf)
    ∧ Subs8 s (.sbbAlIb b) (.reg .al) b (flagGet s.flags .cf)
    ∧ Subs16 s (.sbbAxIw v) (.reg .ax) v (flagGet s.flags .cf)
    ∧ Subs8 s (.sbbEbIb e b) e b (flagGet s.flags .cf)
    ∧ Subs16 s (.sbbEvIw x v) x v (flagGet s.flags .cf)
    ∧ Subs8 s (.sbbEbIbAlias e b) e b (flagGet s.flags .cf)
    ∧ Subs16 s (.sbbEvIbs x b) x (b.signExtend 16) (flagGet s.flags .cf)

/-- CMP in every form (R265): the flags of the difference, nothing written. -/
def Obligations.CmpForms : Prop :=
  ∀ (s : State) (e : Rm8) (g : Reg8) (x : Rm16) (r : Reg16) (b : Byte) (v : Word),
    Compares s (.cmpEbGb e g) (s.rm8 e) (s.reg8 g)
    ∧ Compares s (.cmpEvGv x r) (s.rm16 x) (s.reg16 r)
    ∧ Compares s (.cmpGbEb g e) (s.reg8 g) (s.rm8 e)
    ∧ Compares s (.cmpGvEv r x) (s.reg16 r) (s.rm16 x)
    ∧ Compares s (.cmpAlIb b) (s.reg8 .al) b
    ∧ Compares s (.cmpAxIw v) (s.reg16 .ax) v
    ∧ Compares s (.cmpEbIb e b) (s.rm8 e) b
    ∧ Compares s (.cmpEvIw x v) (s.rm16 x) v
    ∧ Compares s (.cmpEbIbAlias e b) (s.rm8 e) b
    ∧ Compares s (.cmpEvIbs x b) (s.rm16 x) (b.signExtend 16)

/-- AND, OR and XOR in every form (R321-R323, R320). Nothing is said of AF, a free value (DEDUCED, Log 6). -/
def Obligations.LogicForms : Prop :=
  ∀ (s : State) (e : Rm8) (g : Reg8) (x : Rm16) (r : Reg16) (b : Byte) (v : Word),
    Logic8 s (.andEbGb e g) e (s.rm8 e &&& (s.reg8 g))
    ∧ Logic16 s (.andEvGv x r) x (s.rm16 x &&& (s.reg16 r))
    ∧ Logic8 s (.andGbEb g e) (.reg g) (s.reg8 g &&& (s.rm8 e))
    ∧ Logic16 s (.andGvEv r x) (.reg r) (s.reg16 r &&& (s.rm16 x))
    ∧ Logic8 s (.andAlIb b) (.reg .al) (s.reg8 .al &&& b)
    ∧ Logic16 s (.andAxIw v) (.reg .ax) (s.reg16 .ax &&& v)
    ∧ Logic8 s (.andEbIb e b) e (s.rm8 e &&& b)
    ∧ Logic16 s (.andEvIw x v) x (s.rm16 x &&& v)
    ∧ Logic8 s (.andEbIbAlias e b) e (s.rm8 e &&& b)
    ∧ Logic16 s (.andEvIbs x b) x (s.rm16 x &&& (b.signExtend 16))
    ∧ Logic8 s (.orEbGb e g) e (s.rm8 e ||| (s.reg8 g))
    ∧ Logic16 s (.orEvGv x r) x (s.rm16 x ||| (s.reg16 r))
    ∧ Logic8 s (.orGbEb g e) (.reg g) (s.reg8 g ||| (s.rm8 e))
    ∧ Logic16 s (.orGvEv r x) (.reg r) (s.reg16 r ||| (s.rm16 x))
    ∧ Logic8 s (.orAlIb b) (.reg .al) (s.reg8 .al ||| b)
    ∧ Logic16 s (.orAxIw v) (.reg .ax) (s.reg16 .ax ||| v)
    ∧ Logic8 s (.orEbIb e b) e (s.rm8 e ||| b)
    ∧ Logic16 s (.orEvIw x v) x (s.rm16 x ||| v)
    ∧ Logic8 s (.orEbIbAlias e b) e (s.rm8 e ||| b)
    ∧ Logic16 s (.orEvIbs x b) x (s.rm16 x ||| (b.signExtend 16))
    ∧ Logic8 s (.xorEbGb e g) e (s.rm8 e ^^^ (s.reg8 g))
    ∧ Logic16 s (.xorEvGv x r) x (s.rm16 x ^^^ (s.reg16 r))
    ∧ Logic8 s (.xorGbEb g e) (.reg g) (s.reg8 g ^^^ (s.rm8 e))
    ∧ Logic16 s (.xorGvEv r x) (.reg r) (s.reg16 r ^^^ (s.rm16 x))
    ∧ Logic8 s (.xorAlIb b) (.reg .al) (s.reg8 .al ^^^ b)
    ∧ Logic16 s (.xorAxIw v) (.reg .ax) (s.reg16 .ax ^^^ v)
    ∧ Logic8 s (.xorEbIb e b) e (s.rm8 e ^^^ b)
    ∧ Logic16 s (.xorEvIw x v) x (s.rm16 x ^^^ v)
    ∧ Logic8 s (.xorEbIbAlias e b) e (s.rm8 e ^^^ b)
    ∧ Logic16 s (.xorEvIbs x b) x (s.rm16 x ^^^ (b.signExtend 16))

/-- TEST in every form (R324). -/
def Obligations.TestForms : Prop :=
  ∀ (s : State) (e : Rm8) (g : Reg8) (x : Rm16) (r : Reg16) (b : Byte) (v : Word),
    Tests s (.testEbGb e g) (s.rm8 e &&& s.reg8 g)
    ∧ Tests s (.testEvGv x r) (s.rm16 x &&& s.reg16 r)
    ∧ Tests s (.testAlIb b) (s.reg8 .al &&& b)
    ∧ Tests s (.testAxIw v) (s.reg16 .ax &&& v)
    ∧ Tests s (.testEbIb e b) (s.rm8 e &&& b)
    ∧ Tests s (.testEvIw x v) (s.rm16 x &&& v)

/-- INC, DEC, NEG and NOT in every form (R266-R270, R325). -/
def Obligations.IncDecNegNotForms : Prop :=
  ∀ (s : State) (e : Rm8) (x : Rm16) (r : Reg16),
    Unary16 s (.incR16 r) (.reg r) Incremented
    ∧ Unary8 s (.incEb e) e Incremented
    ∧ Unary16 s (.incEv x) x Incremented
    ∧ Unary16 s (.decR16 r) (.reg r) Decremented
    ∧ Unary8 s (.decEb e) e Decremented
    ∧ Unary16 s (.decEv x) x Decremented
    ∧ Unary8 s (.negEb e) e Negated
    ∧ Unary16 s (.negEv x) x Negated
    ∧ Unary8 s (.notEb e) e Complemented
    ∧ Unary16 s (.notEv x) x Complemented

/-- MUL and IMUL (R271-R273): exact products; nothing is said of SF, ZF, AF and PF, free values (DEDUCED, Log 6). -/
def Obligations.MultiplyForms : Prop :=
  ∀ (s : State) (e : Rm8) (x : Rm16) (r : Reg16) (b : Byte) (v : Word),
    (Answers (.mulEb e) s fun t => Plain (.mulEb e) s t ∧ SameMem s t ∧ SameRegsBut [.ax] s t
        ∧ (t.reg16 .ax).toNat = (s.reg8 .al).toNat * (s.rm8 e).toNat
        ∧ MulFlagsOf (decide ((t.reg8 .ah).toNat ≠ 0)) s.flags t.flags)
    ∧ (Answers (.mulEv x) s fun t => Plain (.mulEv x) s t ∧ SameMem s t ∧ SameRegsBut [.ax, .dx] s t
        ∧ (t.reg16 .dx).toNat * 65536 + (t.reg16 .ax).toNat = (s.reg16 .ax).toNat * (s.rm16 x).toNat
        ∧ MulFlagsOf (decide ((t.reg16 .dx).toNat ≠ 0)) s.flags t.flags)
    ∧ (Answers (.imulEb e) s fun t => Plain (.imulEb e) s t ∧ SameMem s t ∧ SameRegsBut [.ax] s t
        ∧ (t.reg16 .ax).toInt = (s.reg8 .al).toInt * (s.rm8 e).toInt
        ∧ MulFlagsOf (overflows 8 ((s.reg8 .al).toInt * (s.rm8 e).toInt)) s.flags t.flags)
    ∧ (Answers (.imulEv x) s fun t => Plain (.imulEv x) s t ∧ SameMem s t ∧ SameRegsBut [.ax, .dx] s t
        ∧ (t.reg16 .dx).toInt * 65536 + (t.reg16 .ax).toNat = (s.reg16 .ax).toInt * (s.rm16 x).toInt
        ∧ MulFlagsOf (overflows 16 ((s.reg16 .ax).toInt * (s.rm16 x).toInt)) s.flags t.flags)
    ∧ (Answers (.imulGvEvIw r x v) s fun t => Plain (.imulGvEvIw r x v) s t ∧ SameMem s t ∧ SameRegsBut [r] s t
        ∧ ((t.reg16 r).toNat : Int) = (s.rm16 x).toInt * v.toInt % 65536
        ∧ MulFlagsOf (overflows 16 ((s.rm16 x).toInt * v.toInt)) s.flags t.flags)
    ∧ (Answers (.imulGvEvIbs r x b) s fun t => Plain (.imulGvEvIbs r x b) s t ∧ SameMem s t ∧ SameRegsBut [r] s t
        ∧ ((t.reg16 r).toNat : Int) = (s.rm16 x).toInt * b.toInt % 65536
        ∧ MulFlagsOf (overflows 16 ((s.rm16 x).toInt * b.toInt)) s.flags t.flags)

/-- DIV, IDIV and AAM where no divide error arises (R274, R275, R280). The remainder of IDIV fits too: it is smaller than
the divisor. -/
def Obligations.DivisionCompletes : Prop :=
  (∀ (s : State) (e : Rm8) (x : Rm16),
      ((s.rm8 e).toNat ≠ 0 → (s.reg16 .ax).toNat / (s.rm8 e).toNat < 2 ^ 8 →
          Answers (.divEb e) s fun t => Plain (.divEb e) s t ∧ SameMem s t ∧ SameRegsBut [.ax] s t
            ∧ (t.reg8 .al).toNat = (s.reg16 .ax).toNat / (s.rm8 e).toNat
            ∧ (t.reg8 .ah).toNat = (s.reg16 .ax).toNat % (s.rm8 e).toNat ∧ KeptFlags arithFlags s.flags t.flags)
      ∧ ((s.rm16 x).toNat ≠ 0 → ((s.reg16 .dx).toNat * 65536 + (s.reg16 .ax).toNat) / (s.rm16 x).toNat < 2 ^ 16 →
          Answers (.divEv x) s fun t => Plain (.divEv x) s t ∧ SameMem s t ∧ SameRegsBut [.ax, .dx] s t
            ∧ (t.reg16 .ax).toNat = ((s.reg16 .dx).toNat * 65536 + (s.reg16 .ax).toNat) / (s.rm16 x).toNat
            ∧ (t.reg16 .dx).toNat = ((s.reg16 .dx).toNat * 65536 + (s.reg16 .ax).toNat) % (s.rm16 x).toNat
            ∧ KeptFlags arithFlags s.flags t.flags)
      ∧ ((s.rm8 e).toInt ≠ 0 → idivFits s.cfg 8 ((s.reg16 .ax).toInt.tdiv (s.rm8 e).toInt) →
          Answers (.idivEb e) s fun t => Plain (.idivEb e) s t ∧ SameMem s t ∧ SameRegsBut [.ax] s t
            ∧ (t.reg8 .al).toInt = (s.reg16 .ax).toInt.tdiv (s.rm8 e).toInt
            ∧ (t.reg8 .ah).toInt = (s.reg16 .ax).toInt.tmod (s.rm8 e).toInt ∧ KeptFlags arithFlags s.flags t.flags)
      ∧ ((s.rm16 x).toInt ≠ 0 →
          idivFits s.cfg 16 (((s.reg16 .dx).toInt * 65536 + (s.reg16 .ax).toNat).tdiv (s.rm16 x).toInt) →
          Answers (.idivEv x) s fun t => Plain (.idivEv x) s t ∧ SameMem s t ∧ SameRegsBut [.ax, .dx] s t
            ∧ (t.reg16 .ax).toInt = ((s.reg16 .dx).toInt * 65536 + (s.reg16 .ax).toNat).tdiv (s.rm16 x).toInt
            ∧ (t.reg16 .dx).toInt = ((s.reg16 .dx).toInt * 65536 + (s.reg16 .ax).toNat).tmod (s.rm16 x).toInt
            ∧ KeptFlags arithFlags s.flags t.flags))
  ∧ (∀ (s : State) (b : Byte), aamBase s b ≠ 0 →
      Answers (.aamIb b) s fun t => Plain (.aamIb b) s t ∧ SameMem s t ∧ SameRegsBut [.ax] s t
        ∧ (t.reg8 .ah).toNat = (s.reg8 .al).toNat / aamBase s b ∧ (t.reg8 .al).toNat = (s.reg8 .al).toNat % aamBase s b
        ∧ SzpOf (t.reg8 .al) t.flags ∧ KeptFlags arithFlags s.flags t.flags)

/-- DIV, IDIV and AAM enter vector 0 on a divide error, with no register written but SP. -/
def Obligations.DivideErrorTraps : Prop :=
  ∀ (s : State) (e : Rm8) (x : Rm16) (b : Byte),
    ((s.rm8 e).toNat = 0 ∨ 2 ^ 8 ≤ (s.reg16 .ax).toNat / (s.rm8 e).toNat →
        Enters s (.divEb e) 0#8 (divErrorReturn s (.divEb e)))
    ∧ ((s.rm16 x).toNat = 0 ∨ 2 ^ 16 ≤ ((s.reg16 .dx).toNat * 65536 + (s.reg16 .ax).toNat) / (s.rm16 x).toNat →
        Enters s (.divEv x) 0#8 (divErrorReturn s (.divEv x)))
    ∧ ((s.rm8 e).toInt = 0 ∨ ¬idivFits s.cfg 8 ((s.reg16 .ax).toInt.tdiv (s.rm8 e).toInt) →
        Enters s (.idivEb e) 0#8 (divErrorReturn s (.idivEb e)))
    ∧ ((s.rm16 x).toInt = 0
          ∨ ¬idivFits s.cfg 16 (((s.reg16 .dx).toInt * 65536 + (s.reg16 .ax).toNat).tdiv (s.rm16 x).toInt) →
        Enters s (.idivEv x) 0#8 (divErrorReturn s (.idivEv x)))
    ∧ (aamBase s b = 0 → Enters s (.aamIb b) 0#8 (divErrorReturn s (.aamIb b)))

/-- DAA, DAS, AAA, AAS, AAD, CBW and CWD. -/
def Obligations.Adjusts : Prop :=
  (∀ s : State,
      (Answers .daa s fun t => Plain .daa s t ∧ SameMem s t ∧ KeptFlags arithFlags s.flags t.flags
          ∧ ∃ v : Byte, SetByteReg s t .al v ∧ SzpOf v t.flags
            ∧ v.toNat = ((s.reg8 .al).toNat + (if lowAdjusts s then 6 else 0) + (if highAdjusts s then 0x60 else 0)) % 256
            ∧ flagGet t.flags .af = lowAdjusts s ∧ flagGet t.flags .cf = highAdjusts s)
      ∧ (Answers .das s fun t => Plain .das s t ∧ SameMem s t ∧ KeptFlags arithFlags s.flags t.flags
          ∧ ∃ v : Byte, SetByteReg s t .al v ∧ SzpOf v t.flags
            ∧ (v.toNat : Int)
              = (((s.reg8 .al).toNat : Int) - (if lowAdjusts s then 6 else 0) - (if highAdjusts s then 0x60 else 0)) % 256
            ∧ flagGet t.flags .af = lowAdjusts s
            ∧ flagGet t.flags .cf = (highAdjusts s || lowAdjusts s && decide ((s.reg8 .al).toNat < 6)))
      ∧ (Answers .aaa s fun t => Plain .aaa s t ∧ SameMem s t ∧ KeptFlags arithFlags s.flags t.flags ∧ SameRegsBut [.ax] s t
          ∧ (t.reg8 .al).toNat = ((s.reg8 .al).toNat + if lowAdjusts s then 6 else 0) % 16
          ∧ (t.reg8 .ah).toNat
            = (if !lowAdjusts s then (s.reg8 .ah).toNat
               else if s.cfg.aaaCarryIntoAh then ((s.reg16 .ax).toNat + 0x0106) / 256 % 256
               else ((s.reg8 .ah).toNat + 1) % 256)
          ∧ flagGet t.flags .af = lowAdjusts s ∧ flagGet t.flags .cf = lowAdjusts s)
      ∧ (Answers .aas s fun t => Plain .aas s t ∧ SameMem s t ∧ KeptFlags arithFlags s.flags t.flags ∧ SameRegsBut [.ax] s t
          ∧ ((t.reg8 .al).toNat : Int) = (((s.reg8 .al).toNat : Int) - if lowAdjusts s then 6 else 0) % 16
          ∧ ((t.reg8 .ah).toNat : Int)
            = (if !lowAdjusts s then ((s.reg8 .ah).toNat : Int)
               else if s.cfg.aaaCarryIntoAh then (((s.reg16 .ax).toNat : Int) - 6) % 65536 / 256 - 1
               else (s.reg8 .ah).toNat - 1) % 256
          ∧ flagGet t.flags .af = lowAdjusts s ∧ flagGet t.flags .cf = lowAdjusts s))
  ∧ (∀ (s : State) (b : Byte),
      (Answers (.aadIb b) s fun t => Plain (.aadIb b) s t ∧ SameMem s t ∧ SameRegsBut [.ax] s t
          ∧ (t.reg8 .al).toNat = ((s.reg8 .al).toNat + (s.reg8 .ah).toNat * aamBase s b) % 256 ∧ (t.reg8 .ah).toNat = 0
          ∧ SzpOf (t.reg8 .al) t.flags ∧ KeptFlags arithFlags s.flags t.flags)
      ∧ (Answers .cbw s fun t => Plain .cbw s t ∧ t.flags = s.flags ∧ SameMem s t
          ∧ SameRegsBut [.ax] s t ∧ (t.reg16 .ax).toInt = (s.reg8 .al).toInt)
      ∧ (Answers .cwd s fun t => Plain .cwd s t ∧ t.flags = s.flags ∧ SameMem s t
          ∧ SetWordReg s t .dx (if (s.reg16 .ax).toInt < 0 then 0xFFFF#16 else 0x0000#16)))

/-- Shifts and rotates (R326-R333): the closed form of n single-bit steps. Nothing is said of OF for n >= 2 and of AF
after a shift, free values (DEDUCED, Log 6). -/
def Obligations.ShiftAndRotateForms : Prop :=
  ∀ (s : State) (e : Rm8) (x : Rm16) (b : Byte),
    Shifts8 s (.rolEbIb e b) .rol e b
    ∧ Shifts16 s (.rolEvIb x b) .rol x b
    ∧ Shifts8 s (.rolEb1 e) .rol e 1#8
    ∧ Shifts16 s (.rolEv1 x) .rol x 1#8
    ∧ Shifts8 s (.rolEbCl e) .rol e (s.reg8 .cl)
    ∧ Shifts16 s (.rolEvCl x) .rol x (s.reg8 .cl)
    ∧ Shifts8 s (.rorEbIb e b) .ror e b
    ∧ Shifts16 s (.rorEvIb x b) .ror x b
    ∧ Shifts8 s (.rorEb1 e) .ror e 1#8
    ∧ Shifts16 s (.rorEv1 x) .ror x 1#8
    ∧ Shifts8 s (.rorEbCl e) .ror e (s.reg8 .cl)
    ∧ Shifts16 s (.rorEvCl x) .ror x (s.reg8 .cl)
    ∧ Shifts8 s (.rclEbIb e b) .rcl e b
    ∧ Shifts16 s (.rclEvIb x b) .rcl x b
    ∧ Shifts8 s (.rclEb1 e) .rcl e 1#8
    ∧ Shifts16 s (.rclEv1 x) .rcl x 1#8
    ∧ Shifts8 s (.rclEbCl e) .rcl e (s.reg8 .cl)
    ∧ Shifts16 s (.rclEvCl x) .rcl x (s.reg8 .cl)
    ∧ Shifts8 s (.rcrEbIb e b) .rcr e b
    ∧ Shifts16 s (.rcrEvIb x b) .rcr x b
    ∧ Shifts8 s (.rcrEb1 e) .rcr e 1#8
    ∧ Shifts16 s (.rcrEv1 x) .rcr x 1#8
    ∧ Shifts8 s (.rcrEbCl e) .rcr e (s.reg8 .cl)
    ∧ Shifts16 s (.rcrEvCl x) .rcr x (s.reg8 .cl)
    ∧ Shifts8 s (.shlEbIb e b) .shl e b
    ∧ Shifts16 s (.shlEvIb x b) .shl x b
    ∧ Shifts8 s (.shlEb1 e) .shl e 1#8
    ∧ Shifts16 s (.shlEv1 x) .shl x 1#8
    ∧ Shifts8 s (.shlEbCl e) .shl e (s.reg8 .cl)
    ∧ Shifts16 s (.shlEvCl x) .shl x (s.reg8 .cl)
    ∧ Shifts8 s (.shrEbIb e b) .shr e b
    ∧ Shifts16 s (.shrEvIb x b) .shr x b
    ∧ Shifts8 s (.shrEb1 e) .shr e 1#8
    ∧ Shifts16 s (.shrEv1 x) .shr x 1#8
    ∧ Shifts8 s (.shrEbCl e) .shr e (s.reg8 .cl)
    ∧ Shifts16 s (.shrEvCl x) .shr x (s.reg8 .cl)
    ∧ Shifts8 s (.sarEbIb e b) .sar e b
    ∧ Shifts16 s (.sarEvIb x b) .sar x b
    ∧ Shifts8 s (.sarEb1 e) .sar e 1#8
    ∧ Shifts16 s (.sarEv1 x) .sar x 1#8
    ∧ Shifts8 s (.sarEbCl e) .sar e (s.reg8 .cl)
    ∧ Shifts16 s (.sarEvCl x) .sar x (s.reg8 .cl)

/-- MOV between registers, memory and immediates: every form. -/
def Obligations.MovForms : Prop :=
  ∀ (s : State) (e : Rm8) (g : Reg8) (x : Rm16) (r : Reg16) (b : Byte) (v : Word),
    Moves8 s (.movEbGb e g) e (s.reg8 g)
    ∧ Moves16 s (.movEvGv x r) x (s.reg16 r)
    ∧ Moves8 s (.movGbEb g e) (.reg g) (s.rm8 e)
    ∧ Moves16 s (.movGvEv r x) (.reg r) (s.rm16 x)
    ∧ Moves8 s (.movR8Ib g b) (.reg g) b
    ∧ Moves16 s (.movR16Iw r v) (.reg r) v
    ∧ Moves8 s (.movEbIb e b) e b
    ∧ Moves16 s (.movEvIw x v) x v
    ∧ Moves8 s (.movAlOb v) (.reg .al) (s.mem8 (sourceSeg s) v)
    ∧ Moves16 s (.movAxOw v) (.reg .ax) (s.mem16 (sourceSeg s) v)
    ∧ (Answers (.movObAl v) s fun t => Plain (.movObAl v) s t ∧ t.flags = s.flags ∧ SameRegsBut [] s t
        ∧ Stored8 s t (sourceSeg s) v (s.reg8 .al))
    ∧ (Answers (.movOwAx v) s fun t => Plain (.movOwAx v) s t ∧ t.flags = s.flags ∧ SameRegsBut [] s t
        ∧ Stored16 s t (sourceSeg s) v (s.reg16 .ax))

/-- MOV from and to segment registers. -/
def Obligations.SegmentMoves : Prop :=
  ∀ (s : State) (x : Rm16),
    Moves16 s (.movEwEs x) x s.segs.es
    ∧ Moves16 s (.movEwCs x) x s.segs.cs
    ∧ Moves16 s (.movEwSs x) x s.segs.ss
    ∧ Moves16 s (.movEwDs x) x s.segs.ds
    ∧ (Answers (.movEsEw x) s fun t => LoadsSeg s t (.movEsEw x) .es (s.rm16 x) ∧ SameData s t)
    ∧ (Answers (.movSsEw x) s fun t => LoadsSeg s t (.movSsEw x) .ss (s.rm16 x) ∧ SameData s t)
    ∧ (Answers (.movDsEw x) s fun t => LoadsSeg s t (.movDsEw x) .ds (s.rm16 x) ∧ SameData s t)

/-- PUSH and PUSHF: SP goes down by 2 and the word is stored there. -/
def Obligations.PushForms : Prop :=
  ∀ (s : State) (r : Reg16) (x : Rm16) (v : Word) (b : Byte),
    Pushes s (.pushR16 r) (if r = .sp ∧ s.cfg.pushSpNew = true then s.reg16 .sp - 2#16 else s.reg16 r)
    ∧ Pushes s (.pushEv x) (s.rm16 x)
    ∧ Pushes s (.pushIw v) v
    ∧ Pushes s (.pushIbs b) (b.signExtend 16)
    ∧ Pushes s .pushEs s.segs.es
    ∧ Pushes s .pushCs s.segs.cs
    ∧ Pushes s .pushSs s.segs.ss
    ∧ Pushes s .pushDs s.segs.ds
    ∧ Pushes s .pushf s.flags

/-- POP and POPF: the word at SS:SP is read and SP goes up by 2. -/
def Obligations.PopForms : Prop :=
  ∀ (s : State) (r : Reg16) (m : Mem),
    (∀ i : Instr, i = .popR16 r ∨ i = .popEv (.reg r) →
        Answers i s fun t => Plain i s t ∧ t.flags = s.flags ∧ SameMem s t ∧ SameRegsBut [r, .sp] s t
          ∧ t.reg16 r = topWord s ∧ (r ≠ .sp → t.reg16 .sp = s.reg16 .sp + 2#16))
    ∧ (Answers (.popEv (.mem m)) s fun t => Plain (.popEv (.mem m)) s t ∧ t.flags = s.flags
        ∧ SetWordReg s t .sp (s.reg16 .sp + 2#16) ∧ Stored16 s t (s.eaSeg m) (s.eaOff m) (topWord s))
    ∧ (Answers .popEs s fun t => LoadsSeg s t .popEs .es (topWord s) ∧ t.flags = s.flags ∧ SameMem s t
        ∧ SetWordReg s t .sp (s.reg16 .sp + 2#16))
    ∧ (Answers .popSs s fun t => LoadsSeg s t .popSs .ss (topWord s) ∧ t.flags = s.flags ∧ SameMem s t
        ∧ SetWordReg s t .sp (s.reg16 .sp + 2#16))
    ∧ (Answers .popDs s fun t => LoadsSeg s t .popDs .ds (topWord s) ∧ t.flags = s.flags ∧ SameMem s t
        ∧ SetWordReg s t .sp (s.reg16 .sp + 2#16))
    ∧ (Answers .popf s fun t => Plain .popf s t ∧ SameMem s t ∧ SetWordReg s t .sp (s.reg16 .sp + 2#16)
        ∧ t.flags = (topWord s &&& 0x0FD5#16) ||| s.cfg.flagsFixedOne)

/-- PUSHA, POPA, ENTER and LEAVE. -/
def Obligations.StackBlocks : Prop :=
  (∀ s : State,
      (Answers .pusha s fun t => Plain .pusha s t ∧ t.flags = s.flags ∧ SetWordReg s t .sp (s.reg16 .sp - 16#16)
          ∧ MemAs (storesDown s s.segs.ss (s.reg16 .sp)
              [s.reg16 .ax, s.reg16 .cx, s.reg16 .dx, s.reg16 .bx, s.reg16 .sp, s.reg16 .bp, s.reg16 .si, s.reg16 .di]) t)
      ∧ (Answers .popa s fun t => Plain .popa s t ∧ t.flags = s.flags ∧ SameMem s t
          ∧ t.reg16 .di = stackWord s 0#16 ∧ t.reg16 .si = stackWord s 2#16 ∧ t.reg16 .bp = stackWord s 4#16
          ∧ t.reg16 .bx = stackWord s 8#16 ∧ t.reg16 .dx = stackWord s 10#16 ∧ t.reg16 .cx = stackWord s 12#16
          ∧ t.reg16 .ax = stackWord s 14#16 ∧ t.reg16 .sp = s.reg16 .sp + 16#16))
  ∧ (∀ (s : State) (size : Word) (b : Byte),
      (b.toNat % 32 = 0 → Answers (.enterIwIb size b) s fun t => Plain (.enterIwIb size b) s t ∧ t.flags = s.flags
          ∧ SameRegsBut [.sp, .bp] s t ∧ t.reg16 .bp = s.reg16 .sp - 2#16 ∧ t.reg16 .sp = s.reg16 .sp - 2#16 - size
          ∧ MemAs (storesDown s s.segs.ss (s.reg16 .sp) [s.reg16 .bp]) t)
      ∧ (∀ n, b.toNat % 32 = n + 1 → Answers (.enterIwIb size b) s fun t => Plain (.enterIwIb size b) s t ∧ t.flags = s.flags
          ∧ SameRegsBut [.sp, .bp] s t ∧ t.reg16 .bp = s.reg16 .sp - 2#16
          ∧ t.reg16 .sp = s.reg16 .sp - 2#16 - BitVec.ofNat 16 (2 * (n + 1)) - size
          ∧ MemAs (storesDown
              (copiesDown (storesDown s s.segs.ss (s.reg16 .sp) [s.reg16 .bp]) s.segs.ss (s.reg16 .bp) (s.reg16 .sp - 2#16) n)
              s.segs.ss (s.reg16 .sp - 2#16 - BitVec.ofNat 16 (2 * n)) [s.reg16 .sp - 2#16]) t)
      ∧ (Answers .leave s fun t => Plain .leave s t ∧ t.flags = s.flags ∧ SameMem s t ∧ SameRegsBut [.sp, .bp] s t
          ∧ t.reg16 .sp = s.reg16 .bp + 2#16 ∧ t.reg16 .bp = s.mem16 s.segs.ss (s.reg16 .bp)))

/-- XCHG swaps its operands. -/
def Obligations.ExchangeForms : Prop :=
  ∀ (s : State) (g q : Reg8) (r p : Reg16) (m : Mem),
    (Answers (.xchgEbGb (.reg q) g) s fun t => Plain (.xchgEbGb (.reg q) g) s t ∧ t.flags = s.flags ∧ SameMem s t
        ∧ SameRegsBut [Reg8.parent g, Reg8.parent q] s t
        ∧ ∀ k, t.reg8 k = if k = g then s.reg8 q else if k = q then s.reg8 g else s.reg8 k)
    ∧ (Answers (.xchgEbGb (.mem m) g) s fun t => Plain (.xchgEbGb (.mem m) g) s t ∧ t.flags = s.flags
        ∧ SetByteReg s t g (s.mem8 (s.eaSeg m) (s.eaOff m)) ∧ Stored8 s t (s.eaSeg m) (s.eaOff m) (s.reg8 g))
    ∧ (∀ i : Instr, i = .xchgEvGv (.reg p) r ∨ p = .ax ∧ i = .xchgR16Ax r →
        Answers i s fun t => Plain i s t ∧ t.flags = s.flags ∧ SameMem s t ∧ SameRegsBut [r, p] s t
          ∧ t.reg16 r = s.reg16 p ∧ t.reg16 p = s.reg16 r)
    ∧ (Answers (.xchgEvGv (.mem m) r) s fun t => Plain (.xchgEvGv (.mem m) r) s t ∧ t.flags = s.flags
        ∧ SetWordReg s t r (s.mem16 (s.eaSeg m) (s.eaOff m)) ∧ Stored16 s t (s.eaSeg m) (s.eaOff m) (s.reg16 r))

/-- XLAT, LEA, LDS and LES. That the reads of the address registers are recorded, and in their order, is the model's
choice (DESIGN CHOICE, Log 22). -/
def Obligations.AddressLoads : Prop :=
  ∀ (s : State) (r : Reg16) (m : Mem),
    (Answers .xlat s fun t => Plain .xlat s t ∧ t.flags = s.flags ∧ SameMem s t
        ∧ SetByteReg s t .al (s.mem8 (sourceSeg s) (s.reg16 .bx + (s.reg8 .al).setWidth 16)))
    ∧ (Answers (.leaGvM r m) s fun t => Plain (.leaGvM r m) s t ∧ t.flags = s.flags ∧ SameMem s t ∧ SetWordReg s t r (s.eaOff m)
        ∧ t.faults = s.faults
          ++ (match m with | .direct _ => [] | .based b _ => (baseRegs b).flatMap (unsetWordReads s)))
    ∧ (Answers (.ldsGvMp r m) s fun t => SameCore s t ∧ t.ip = s.ipNext (.ldsGvMp r m) ∧ t.flags = s.flags ∧ SameMem s t
        ∧ SetWordReg s t r (s.mem16 (s.eaSeg m) (s.eaOff m))
        ∧ t.segs = { s.segs with ds := s.mem16 (s.eaSeg m) (s.eaOff m + 2#16) })
    ∧ (Answers (.lesGvMp r m) s fun t => SameCore s t ∧ t.ip = s.ipNext (.lesGvMp r m) ∧ t.flags = s.flags ∧ SameMem s t
        ∧ SetWordReg s t r (s.mem16 (s.eaSeg m) (s.eaOff m))
        ∧ t.segs = { s.segs with es := s.mem16 (s.eaSeg m) (s.eaOff m + 2#16) })

/-- Effective offsets and segments of the memory forms. -/
def Obligations.EffectiveAddresses : Prop :=
  ∀ (s : State) (b : Base) (d : Disp) (off : Word),
    s.eaOff (.direct off) = off ∧ s.eaSeg (.direct off) = (match s.cur.segOvr with | some r => s.sreg r | none => s.segs.ds)
    ∧ ((s.eaOff (.based b d)).toNat : Int)
      = (((baseRegs b).map fun r => ((s.reg16 r).toNat : Int)).sum
          + (match d with | .none => 0 | .d8 k => k.toInt | .d16 k => (k.toNat : Int))) % 65536
    ∧ s.eaSeg (.based b d)
      = (match s.cur.segOvr with | some r => s.sreg r | none => if .bp ∈ baseRegs b then s.segs.ss else s.segs.ds)
    ∧ baseRegs .bxsi = [.bx, .si] ∧ baseRegs .bxdi = [.bx, .di] ∧ baseRegs .bpsi = [.bp, .si] ∧ baseRegs .bpdi = [.bp, .di]
    ∧ baseRegs .si = [.si] ∧ baseRegs .di = [.di] ∧ baseRegs .bp = [.bp] ∧ baseRegs .bx = [.bx]

/-- IN and OUT: every form, a word as two bytes, low port first. -/
def Obligations.PortInputAndOutput : Prop :=
  ∀ (s : State) (b : Byte),
    Moves8 s (.inAlIb b) (.reg .al) (s.portRead8 (b.setWidth 16))
    ∧ Moves8 s (.inAlDx) (.reg .al) (s.portRead8 (s.reg16 .dx))
    ∧ Moves16 s (.inAxIb b) (.reg .ax) (s.portRead8 (b.setWidth 16 + 1#16) ++ s.portRead8 (b.setWidth 16))
    ∧ Moves16 s (.inAxDx) (.reg .ax) (s.portRead8 (s.reg16 .dx + 1#16) ++ s.portRead8 (s.reg16 .dx))
    ∧ (Answers (.outIbAl b) s fun t => PortWritten s (s.portWrite8 (b.setWidth 16) (s.reg8 .al)) t ∧ SameRegsBut [] s t
        ∧ t.ip = s.ipNext (.outIbAl b))
    ∧ (Answers (.outDxAl) s fun t => PortWritten s (s.portWrite8 (s.reg16 .dx) (s.reg8 .al)) t ∧ SameRegsBut [] s t
        ∧ t.ip = s.ipNext (.outDxAl))
    ∧ (Answers (.outIbAx b) s fun t =>
        PortWritten s ((s.portWrite8 (b.setWidth 16) (s.reg8 .al)).portWrite8 (b.setWidth 16 + 1#16) (s.reg8 .ah)) t ∧ SameRegsBut [] s t
        ∧ t.ip = s.ipNext (.outIbAx b))
    ∧ (Answers (.outDxAx) s fun t =>
        PortWritten s ((s.portWrite8 (s.reg16 .dx) (s.reg8 .al)).portWrite8 (s.reg16 .dx + 1#16) (s.reg8 .ah)) t ∧ SameRegsBut [] s t
        ∧ t.ip = s.ipNext (.outDxAx))

/-- MOVS, LODS, STOS, INS and OUTS: one element, the index steps and the repeat prefixes. Where IP points between
iterations and what CX = 0 does is the spec's own choice (R361: "The details that follow (where IP points between
iterations, the CX = 0 case) are the spec's own choice"). -/
def Obligations.StringTransfers : Prop :=
  (∀ s : State,
      StringRuns s .movsb
          (fun t => ElementFrame [.si, .di] s t ∧ t.flags = s.flags
            ∧ t.reg16 .si = stepped s .si 1#16 ∧ t.reg16 .di = stepped s .di 1#16
            ∧ Stored8 s t s.segs.es (s.reg16 .di) (s.mem8 (sourceSeg s) (s.reg16 .si))) (fun _ _ => false)
      ∧ StringRuns s .movsw
          (fun t => ElementFrame [.si, .di] s t ∧ t.flags = s.flags
            ∧ t.reg16 .si = stepped s .si 2#16 ∧ t.reg16 .di = stepped s .di 2#16
            ∧ Stored16 s t s.segs.es (s.reg16 .di) (s.mem16 (sourceSeg s) (s.reg16 .si))) (fun _ _ => false)
      ∧ StringRuns s .lodsb
          (fun t => ElementFrame [.ax, .si] s t ∧ t.flags = s.flags ∧ SameMem s t ∧ t.reg16 .si = stepped s .si 1#16
            ∧ t.reg8 .al = s.mem8 (sourceSeg s) (s.reg16 .si) ∧ t.reg8 .ah = s.reg8 .ah) (fun _ _ => false)
      ∧ StringRuns s .lodsw
          (fun t => ElementFrame [.ax, .si] s t ∧ t.flags = s.flags ∧ SameMem s t ∧ t.reg16 .si = stepped s .si 2#16
            ∧ t.reg16 .ax = s.mem16 (sourceSeg s) (s.reg16 .si)) (fun _ _ => false)
      ∧ StringRuns s .stosb
          (fun t => ElementFrame [.di] s t ∧ t.flags = s.flags ∧ t.reg16 .di = stepped s .di 1#16
            ∧ Stored8 s t s.segs.es (s.reg16 .di) (s.reg8 .al)) (fun _ _ => false)
      ∧ StringRuns s .stosw
          (fun t => ElementFrame [.di] s t ∧ t.flags = s.flags ∧ t.reg16 .di = stepped s .di 2#16
            ∧ Stored16 s t s.segs.es (s.reg16 .di) (s.reg16 .ax)) (fun _ _ => false))
  ∧ (∀ s : State,
      StringRuns s .insb
          (fun t => ElementFrame [.di] s t ∧ t.flags = s.flags ∧ t.reg16 .di = stepped s .di 1#16
            ∧ Stored8 s t s.segs.es (s.reg16 .di) (s.portRead8 (s.reg16 .dx))) (fun _ _ => false)
      ∧ StringRuns s .insw
          (fun t => ElementFrame [.di] s t ∧ t.flags = s.flags ∧ t.reg16 .di = stepped s .di 2#16
            ∧ Stored16 s t s.segs.es (s.reg16 .di) (s.portRead8 (s.reg16 .dx + 1#16) ++ s.portRead8 (s.reg16 .dx))) (fun _ _ => false)
      ∧ StringRuns s .outsb
          (fun t => PortWritten s (s.portWrite8 (s.reg16 .dx) (s.mem8 (sourceSeg s) (s.reg16 .si))) t
            ∧ SameRegsBut [.cx, .si] s t ∧ t.reg16 .si = stepped s .si 1#16) (fun _ _ => false)
      ∧ StringRuns s .outsw
          (fun t => PortWritten s ((s.portWrite8 (s.reg16 .dx) (s.mem8 (sourceSeg s) (s.reg16 .si))).portWrite8 (s.reg16 .dx + 1#16) (s.mem8 (sourceSeg s) (s.reg16 .si + 1#16))) t
            ∧ SameRegsBut [.cx, .si] s t ∧ t.reg16 .si = stepped s .si 2#16) (fun _ _ => false))

/-- CMPS and SCAS: the flags of one comparison, and the termination on ZF. Where IP points between iterations and what CX
= 0 does is the spec's own choice (R361: "The details that follow (where IP points between iterations, the CX = 0
case) are the spec's own choice"). -/
def Obligations.StringCompares : Prop :=
  ∀ s : State,
    StringRuns s .cmpsb
        (fun t => ElementFrame [.si, .di] s t ∧ SameMem s t ∧ t.reg16 .si = stepped s .si 1#16 ∧ t.reg16 .di = stepped s .di 1#16
          ∧ (∃ v, DifferenceOf (s.mem8 (sourceSeg s) (s.reg16 .si)) (s.mem8 s.segs.es (s.reg16 .di)) false v s.flags t.flags)
          ∧ flagGet t.flags .cf
            = decide ((s.mem8 (sourceSeg s) (s.reg16 .si)).toNat < (s.mem8 s.segs.es (s.reg16 .di)).toNat)) (fun k fl => match k with | .rep => !flagGet fl .zf | .repne => flagGet fl .zf)
    ∧ StringRuns s .cmpsw
        (fun t => ElementFrame [.si, .di] s t ∧ SameMem s t ∧ t.reg16 .si = stepped s .si 2#16 ∧ t.reg16 .di = stepped s .di 2#16
          ∧ (∃ v, DifferenceOf (s.mem16 (sourceSeg s) (s.reg16 .si)) (s.mem16 s.segs.es (s.reg16 .di)) false v s.flags t.flags)
          ∧ flagGet t.flags .cf
            = decide ((s.mem16 (sourceSeg s) (s.reg16 .si)).toNat < (s.mem16 s.segs.es (s.reg16 .di)).toNat)) (fun k fl => match k with | .rep => !flagGet fl .zf | .repne => flagGet fl .zf)
    ∧ StringRuns s .scasb
        (fun t => ElementFrame [.di] s t ∧ SameMem s t ∧ t.reg16 .di = stepped s .di 1#16
          ∧ (∃ v, DifferenceOf (s.reg8 .al) (s.mem8 s.segs.es (s.reg16 .di)) false v s.flags t.flags)
          ∧ flagGet t.flags .cf = decide ((s.reg8 .al).toNat < (s.mem8 s.segs.es (s.reg16 .di)).toNat)) (fun k fl => match k with | .rep => !flagGet fl .zf | .repne => flagGet fl .zf)
    ∧ StringRuns s .scasw
        (fun t => ElementFrame [.di] s t ∧ SameMem s t ∧ t.reg16 .di = stepped s .di 2#16
          ∧ (∃ v, DifferenceOf (s.reg16 .ax) (s.mem16 s.segs.es (s.reg16 .di)) false v s.flags t.flags)
          ∧ flagGet t.flags .cf = decide ((s.reg16 .ax).toNat < (s.mem16 s.segs.es (s.reg16 .di)).toNat)) (fun k fl => match k with | .rep => !flagGet fl .zf | .repne => flagGet fl .zf)

/-- JMP and Jcc: every form and condition. -/
def Obligations.JumpForms : Prop :=
  (∀ (s : State) (b : Byte) (v sg : Word) (x : Rm16) (m : Mem),
      JumpsTo s (.jmpRel8 b) (s.ipNext (.jmpRel8 b) + b.signExtend 16)
      ∧ JumpsTo s (.jmpRel16 v) (s.ipNext (.jmpRel16 v) + v)
      ∧ JumpsFar s (.jmpAp v sg) sg v
      ∧ JumpsTo s (.jmpEv x) (s.rm16 x)
      ∧ JumpsFar s (.jmpMp m) (s.mem16 (s.eaSeg m) (s.eaOff m + 2#16)) (s.mem16 (s.eaSeg m) (s.eaOff m)))
  ∧ (∀ (s : State) (b : Byte),
      JumpsIf s (.joRel8 b) (flagGet s.flags .of) b
      ∧ JumpsIf s (.jnoRel8 b) (!flagGet s.flags .of) b
      ∧ JumpsIf s (.jbRel8 b) (flagGet s.flags .cf) b
      ∧ JumpsIf s (.jnbRel8 b) (!flagGet s.flags .cf) b
      ∧ JumpsIf s (.jzRel8 b) (flagGet s.flags .zf) b
      ∧ JumpsIf s (.jnzRel8 b) (!flagGet s.flags .zf) b
      ∧ JumpsIf s (.jbeRel8 b) (flagGet s.flags .cf || flagGet s.flags .zf) b
      ∧ JumpsIf s (.jaRel8 b) (!flagGet s.flags .cf && !flagGet s.flags .zf) b
      ∧ JumpsIf s (.jsRel8 b) (flagGet s.flags .sf) b
      ∧ JumpsIf s (.jnsRel8 b) (!flagGet s.flags .sf) b
      ∧ JumpsIf s (.jpRel8 b) (flagGet s.flags .pf) b
      ∧ JumpsIf s (.jnpRel8 b) (!flagGet s.flags .pf) b
      ∧ JumpsIf s (.jlRel8 b) (flagGet s.flags .sf != flagGet s.flags .of) b
      ∧ JumpsIf s (.jgeRel8 b) (flagGet s.flags .sf == flagGet s.flags .of) b
      ∧ JumpsIf s (.jleRel8 b) (flagGet s.flags .zf || flagGet s.flags .sf != flagGet s.flags .of) b
      ∧ JumpsIf s (.jgRel8 b) (!flagGet s.flags .zf && flagGet s.flags .sf == flagGet s.flags .of) b)

/-- CALL, RET and RETF: every form. -/
def Obligations.CallAndReturnForms : Prop :=
  (∀ (s : State) (v sg : Word) (x : Rm16) (m : Mem),
      CallsTo s (.callRel16 v) [s.ipNext (.callRel16 v)] s.segs (s.ipNext (.callRel16 v) + v)
      ∧ CallsTo s (.callEv x) [s.ipNext (.callEv x)] s.segs (s.rm16 x)
      ∧ CallsTo s (.callAp v sg) [s.segs.cs, s.ipNext (.callAp v sg)] { s.segs with cs := sg } v
      ∧ CallsTo s (.callMp m) [s.segs.cs, s.ipNext (.callMp m)]
          { s.segs with cs := s.mem16 (s.eaSeg m) (s.eaOff m + 2#16) } (s.mem16 (s.eaSeg m) (s.eaOff m)))
  ∧ (∀ (s : State) (v : Word),
      ReturnsTo s .ret 2#16 s.segs (topWord s)
      ∧ ReturnsTo s (.retIw v) (2#16 + v) s.segs (topWord s)
      ∧ ReturnsTo s .retf 4#16 { s.segs with cs := stackWord s 2#16 } (topWord s)
      ∧ ReturnsTo s (.retfIw v) (4#16 + v) { s.segs with cs := stackWord s 2#16 } (topWord s))

/-- LOOP, LOOPZ, LOOPNZ and JCXZ. -/
def Obligations.LoopForms : Prop :=
  ∀ (s : State) (b : Byte),
    (Answers (.loopRel8 b) s fun t => SameCore s t ∧ t.segs = s.segs ∧ t.flags = s.flags ∧ SameMem s t
        ∧ SetWordReg s t .cx (s.reg16 .cx - 1#16)
        ∧ t.ip = if s.reg16 .cx ≠ 1#16 ∧ (true) = true then s.ipNext (.loopRel8 b) + b.signExtend 16 else s.ipNext (.loopRel8 b))
    ∧ (Answers (.loopzRel8 b) s fun t => SameCore s t ∧ t.segs = s.segs ∧ t.flags = s.flags ∧ SameMem s t
        ∧ SetWordReg s t .cx (s.reg16 .cx - 1#16)
        ∧ t.ip = if s.reg16 .cx ≠ 1#16 ∧ (flagGet s.flags .zf) = true then s.ipNext (.loopzRel8 b) + b.signExtend 16 else s.ipNext (.loopzRel8 b))
    ∧ (Answers (.loopnzRel8 b) s fun t => SameCore s t ∧ t.segs = s.segs ∧ t.flags = s.flags ∧ SameMem s t
        ∧ SetWordReg s t .cx (s.reg16 .cx - 1#16)
        ∧ t.ip = if s.reg16 .cx ≠ 1#16 ∧ (!flagGet s.flags .zf) = true then s.ipNext (.loopnzRel8 b) + b.signExtend 16 else s.ipNext (.loopnzRel8 b))
    ∧ JumpsIf s (.jcxzRel8 b) (decide ((s.reg16 .cx).toNat = 0)) b

/-- BOUND falls through in range and enters vector 5 out of range. -/
def Obligations.BoundChecks : Prop :=
  ∀ (s : State) (r : Reg16) (m : Mem),
    ((s.mem16 (s.eaSeg m) (s.eaOff m)).toInt ≤ (s.reg16 r).toInt →
        (s.reg16 r).toInt ≤ (s.mem16 (s.eaSeg m) (s.eaOff m + 2#16)).toInt →
        Answers (.boundGvMa r m) s fun t => Plain (.boundGvMa r m) s t ∧ SameData s t)
    ∧ ((s.reg16 r).toInt < (s.mem16 (s.eaSeg m) (s.eaOff m)).toInt
          ∨ (s.mem16 (s.eaSeg m) (s.eaOff m + 2#16)).toInt < (s.reg16 r).toInt →
        Enters s (.boundGvMa r m) 5#8 s.ip)

/-- INT, INT3, INTO and IRET. -/
def Obligations.InterruptInstructions : Prop :=
  (∀ (s : State) (n : Byte),
      Enters s (.intIb n) n (s.ipNext (.intIb n)) ∧ Enters s .int3 3#8 (s.ipNext .int3)
      ∧ (if flagGet s.flags .of = true then Enters s .into 4#8 (s.ipNext .into)
         else Answers .into s fun t => Plain .into s t ∧ SameData s t))
  ∧ (∀ s : State, Answers .iret s fun t => SameCore s t ∧ SameMem s t ∧ SetWordReg s t .sp (s.reg16 .sp + 6#16)
      ∧ t.ip = topWord s ∧ t.segs = { s.segs with cs := stackWord s 2#16 }
      ∧ t.flags = (stackWord s 4#16 &&& 0x0FD5#16) ||| s.cfg.flagsFixedOne)

/-- No instruction stops, and a step stops only where every byte of the code segment is a prefix, which hangs it. That the
hung state is a fault of the step is read from R152 (DEDUCED, Log 15). -/
def Obligations.EveryInstructionCompletes : Prop :=
  (∀ (i : Instr) (s : State), ∃ t, exec i s = .next t)
    ∧ ∀ s : State, (∃ t, step s = .next t) ∨ (step s = .fault .hung
      ∧ ∀ off, s.mem8 s.segs.cs off ∈ [0x26#8, 0x2E#8, 0x36#8, 0x3E#8, 0xF0#8, 0xF2#8, 0xF3#8])

/-- The flag instructions, LAHF and SAHF. -/
def Obligations.FlagInstructions : Prop :=
  (∀ s : State,
      (Answers .clc s fun t => Plain .clc s t ∧ SameRegsBut [] s t ∧ SameMem s t ∧ KeptFlags [.cf] s.flags t.flags
          ∧ flagGet t.flags .cf = false)
      ∧ (Answers .stc s fun t => Plain .stc s t ∧ SameRegsBut [] s t ∧ SameMem s t ∧ KeptFlags [.cf] s.flags t.flags
          ∧ flagGet t.flags .cf = true)
      ∧ (Answers .cmc s fun t => Plain .cmc s t ∧ SameRegsBut [] s t ∧ SameMem s t ∧ KeptFlags [.cf] s.flags t.flags
          ∧ flagGet t.flags .cf = !flagGet s.flags .cf)
      ∧ (Answers .cld s fun t => Plain .cld s t ∧ SameRegsBut [] s t ∧ SameMem s t ∧ KeptFlags [.df] s.flags t.flags
          ∧ flagGet t.flags .df = false)
      ∧ (Answers .std s fun t => Plain .std s t ∧ SameRegsBut [] s t ∧ SameMem s t ∧ KeptFlags [.df] s.flags t.flags
          ∧ flagGet t.flags .df = true)
      ∧ (Answers .cli s fun t => Plain .cli s t ∧ SameRegsBut [] s t ∧ SameMem s t ∧ KeptFlags [.if_] s.flags t.flags
          ∧ flagGet t.flags .if_ = false)
      ∧ (Answers .sti s fun t => SameOutside s t ∧ t.halted = s.halted ∧ t.cur = s.cur ∧ t.faults = s.faults ∧ t.segs = s.segs
          ∧ t.ip = s.ipNext .sti ∧ SameRegsBut [] s t ∧ SameMem s t ∧ KeptFlags [.if_] s.flags t.flags
          ∧ flagGet t.flags .if_ = true ∧ t.shadow = (s.shadow || decide (s.cfg.intShadow = .ssAndSti))))
  ∧ (∀ s : State,
      (Answers .lahf s fun t => Plain .lahf s t ∧ t.flags = s.flags ∧ SameMem s t ∧ SetByteReg s t .ah (s.flags.setWidth 8))
      ∧ (Answers .sahf s fun t => Plain .sahf s t ∧ SameMem s t ∧ SameRegsBut [] s t
          ∧ KeptFlags [.sf, .zf, .af, .pf, .cf] s.flags t.flags
          ∧ flagGet t.flags .sf = (s.reg8 .ah).getLsbD 7 ∧ flagGet t.flags .zf = (s.reg8 .ah).getLsbD 6
          ∧ flagGet t.flags .af = (s.reg8 .ah).getLsbD 4 ∧ flagGet t.flags .pf = (s.reg8 .ah).getLsbD 2
          ∧ flagGet t.flags .cf = (s.reg8 .ah).getLsbD 0))

/-- The prefixes, NOP, WAIT, ESC and HLT. That a prefix is an instruction of its own in the decode state of one step is
the model's choice (DESIGN CHOICE, Log 14). -/
def Obligations.PrefixesAndNoOperations : Prop :=
  (∀ s : State,
      exec .pfxEs s = .next { s with cur := { s.cur with segOvr := some .es, pfxLen := s.cur.pfxLen + 1 } }
      ∧ exec .pfxCs s = .next { s with cur := { s.cur with segOvr := some .cs, pfxLen := s.cur.pfxLen + 1 } }
      ∧ exec .pfxSs s = .next { s with cur := { s.cur with segOvr := some .ss, pfxLen := s.cur.pfxLen + 1 } }
      ∧ exec .pfxDs s = .next { s with cur := { s.cur with segOvr := some .ds, pfxLen := s.cur.pfxLen + 1 } }
      ∧ exec .pfxRep s = .next { s with cur := { s.cur with rep := some .rep, pfxLen := s.cur.pfxLen + 1 } }
      ∧ exec .pfxRepne s = .next { s with cur := { s.cur with rep := some .repne, pfxLen := s.cur.pfxLen + 1 } }
      ∧ exec .pfxLock s = .next { s with cur := { s.cur with lock := true, pfxLen := s.cur.pfxLen + 1 } })
  ∧ (∀ (s : State) (n k : BitVec 3) (x : Rm16),
      exec .nop s = .next { s with ip := s.ipNext .nop } ∧ exec .wait s = .next { s with ip := s.ipNext .wait }
      ∧ exec (.esc n k x) s = .next { s with ip := s.ipNext (.esc n k x) }
      ∧ exec .hlt s = .next { s with ip := s.ipNext .hlt, halted := true })

/-- A word access is two byte accesses, low byte first, wrapping in its segment. -/
def Obligations.WordAccess : Prop :=
  ∀ (s : State) (sg off v : Word),
    (phys sg off).toNat = (sg.toNat * 16 + off.toNat) % 2 ^ 20
    ∧ (s.mem16 sg off).toNat = (s.busRead8 (phys sg off)).toNat + 256 * (s.busRead8 (phys sg (off + 1#16))).toNat
    ∧ Stored16 s (s.writeMem16 sg off v) sg off v

/-- A store is observable through every alias, and ROM and open bus ignore stores. -/
def Obligations.AliasedStores : Prop :=
  ∀ (s : State) (a c : Phys) (b : Byte),
    ((s.locate a).writable = true → s.locate c = s.locate a → (s.busWrite8 a b).busRead8 c = b)
    ∧ (s.locate c ≠ s.locate a → (s.busWrite8 a b).busRead8 c = s.busRead8 c)
    ∧ (∀ p, (s.busWrite8 a b).readPlace p = if p = s.locate a ∧ p.writable = true then b else s.readPlace p)
    ∧ (∀ p, placeReads (s.busWrite8 a b) p = if p = s.locate a ∧ p.writable = true then [] else placeReads s p)
    ∧ ((s.locate a).writable = false → s.busWrite8 a b = s)

/-- What each address of the default memory map names, and what the reset vector reads. That the default map is the one of
the table is the spec's own choice (R111: "It is the spec's choice, modelled on the WonderSwan's layout"); that a ROM
image of length 0 reads as open bus is the model's (DESIGN CHOICE, Log 23). -/
def Obligations.DefaultMemoryMap : Prop :=
  (∀ (s : State) (a : Phys), s.cfg.memMap = ({} : Cfg).memMap →
      (a.toNat < 0x10000 → s.locate a = .ram (a.toNat % s.cfg.ramSize))
      ∧ (0x10000 ≤ a.toNat → a.toNat < 0x20000 →
          s.locate a = if s.save.size = 0 then .openBus
            else .save ((s.banks.save.toNat * 2 ^ 16 + a.toNat % 2 ^ 16) % s.save.size))
      ∧ (0x20000 ≤ a.toNat →
          let raw := if a.toNat < 0x30000 then s.banks.rom0.toNat * 2 ^ 16 + a.toNat % 2 ^ 16
            else if a.toNat < 0x40000 then s.banks.rom1.toNat * 2 ^ 16 + a.toNat % 2 ^ 16
            else s.banks.lin.toNat * 2 ^ 20 + a.toNat
          let o := raw % ((s.rom.len + s.cfg.romGranule - 1) / s.cfg.romGranule * s.cfg.romGranule)
          s.locate a = if o < s.rom.len then .rom o else .openBus))
  ∧ (∀ (o : OpenCfg) (rom : Rom) (save : SaveMem) (m : HostMode) (k j : Nat), 16 ≤ k → k ≤ 28 → rom.len = 2 ^ k → j < 16 →
      let s := State.resetWith {} o rom save m []
      s.locate (phys s.segs.cs (s.ip + BitVec.ofNat 16 j)) = .rom (rom.len - 16 + j))

/-- The host mode, its sample buffer and its trace change nothing else of a step. That the cycles of an instruction are a
free function of what its operands can be read from is the model's form of CycleCost (DESIGN CHOICE, Log 7), and the
moment of the trace record is the model's choice (DESIGN CHOICE, Log 20). -/
def Obligations.HostModesChangeNothing : Prop :=
  ∀ (s : State) (m : HostMode) (samples : List Int) (trace : List TraceRec),
    let t : State := { s with mode := m, samples := samples, trace := trace }
    match step s with
    | .next u => ∃ v, step t = .next v ∧ v = { u with mode := m, samples := v.samples, trace := v.trace }
        ∧ (m ≠ .normal → v.samples = samples) ∧ (m ≠ .trace → v.trace = trace)
    | .fault f => step t = .fault f
    | .refused r => step t = .refused r

/-- A step runs the instruction whose bytes stand at CS:IP. The moment of the trace record and the order of the recorded
reads are the model's choices (DESIGN CHOICE, Logs 20 and 22). -/
def Obligations.StepRunsDecodedInstruction : Prop :=
  ∀ (s u : State) (i : Instr), Runs s → i.wf = true → i.isPrefix = false → s.codeBytes s.ip i.len = encode i →
    exec i ((started s).noteCode i.len) = .next u →
    let p := (u.traced (started s) i).singleStep (s.flag .tf) (some ((started s).cycles i))
    step s = .next (p.1.advanceDevices (p.1.deviceCycles p.2)).endStep

/-- Prefixes accumulate for the instruction they precede, the last one of a kind wins. The decode state of the step, the
moment of the trace record (before the single-step trap) and the order of the recorded reads are the model's choices
(DESIGN CHOICE, Logs 14, 20 and 22). -/
def Obligations.StepReadsPrefixes : Prop :=
  ∀ (s u : State) (ps : List Instr) (i : Instr), Runs s → ps.length < 65536 → (∀ p ∈ ps, p.isPrefix = true) →
    i.wf = true → i.isPrefix = false →
    s.codeBytes s.ip (ps.length + i.len) = ps.flatMap encode ++ encode i →
    let s1 := readPrefixes (started s) ps
    exec i (s1.noteCode i.len) = .next u →
    s.cpuStep = .next ((u.traced s1 i).singleStep (s.flag .tf) (some (s1.cycles i)))
    ∧ s1 = { started s with faults := s.faults ++ s.unsetCode s.ip ps.length, cur := prefixCtx ps }

/-- A code segment of prefix bytes hangs the step. That the hung state is a fault of the step is read from R152 (DEDUCED,
Log 15). -/
def Obligations.PrefixesOnlyHang : Prop :=
  ∀ s : State, Runs s →
    (∀ off, s.mem8 s.segs.cs off ∈ [0x26#8, 0x2E#8, 0x36#8, 0x3E#8, 0xF0#8, 0xF2#8, 0xF3#8]) → step s = .fault .hung

/-- The decode gaps and their lengths. -/
def Obligations.DecodeGaps : Prop :=
  (∀ (b : Byte) (rest : List Byte), b ∈ [0x0F#8, 0x63#8, 0x64#8, 0x65#8, 0x66#8, 0x67#8, 0xD6#8, 0xF1#8] →
      decode (b :: rest) = .gap .opcode 1)
    ∧ (∀ (b : Byte) (reg : BitVec 3) (x : Rm16) (rest : List Byte), x.wf = true → groupGap b reg = true →
      decode (b :: (encodeE16 reg x ++ rest)) = .gap .group (1 + (encodeE16 reg x).length))
    ∧ ∀ (b : Byte) (reg : BitVec 3) (r : Reg16) (rest : List Byte),
      b ∈ [0x8D#8, 0xC4#8, 0xC5#8, 0x62#8] ∨ b = 0xFF#8 ∧ (reg = 3#3 ∨ reg = 5#3) →
      decode (b :: (encodeE16 reg (.reg r) ++ rest)) = .gap .registerForm 2

/-- A decode gap records a diagnostic and advances IP, and nothing else. That a gap appends no trace record, the order of
the recorded reads and the decode state are the model's choices (DESIGN CHOICE, Logs 14, 20 and 22). -/
def Obligations.GapStep : Prop :=
  ∀ (s : State) (ps : List Instr) (k : GapReason) (n : Nat), Runs s → ps.length < 65536 → (∀ p ∈ ps, p.isPrefix = true) →
    s.codeBytes s.ip ps.length = ps.flatMap encode →
    decode (s.codeBytes (s.ip + BitVec.ofNat 16 ps.length) 6) = .gap k n →
    s.cpuStep = .next (State.singleStep
      { started s with
        faults := s.faults ++ s.unsetCode s.ip (ps.length + n)
        diag := s.diag ++ [.decodeGap s.segs.cs s.ip (s.codeBytes s.ip (ps.length + n))]
        ip := s.ip + BitVec.ofNat 16 (ps.length + n)
        cur := prefixCtx ps } (s.flag .tf) (some s.ext.gapCycles))

/-- A few words, written out from the encoding tables, decode to their instructions. -/
def Obligations.DecodedWords : Prop :=
  decode [0x01#8, 0xD8#8] = .instr (.addEvGv (.reg .ax) .bx) []
    ∧ decode [0xC6#8, 0x06#8, 0x00#8, 0x01#8, 0x42#8] = .instr (.movEbIb (.mem (.direct 0x0100#16)) 0x42#8) []
    ∧ decode [0x8D#8, 0x40#8, 0x05#8] = .instr (.leaGvM .ax (.based .bxsi (.d8 5#8))) []
    ∧ decode [0x6B#8, 0xC3#8, 0x0A#8] = .instr (.imulGvEvIbs .ax (.reg .bx) 0x0A#8) []
    ∧ decode [0xD0#8, 0xC0#8] = .instr (.rolEb1 (.reg .al)) []
    ∧ decode [0xEA#8, 0x00#8, 0x00#8, 0x00#8, 0xF0#8] = .instr (.jmpAp 0x0000#16 0xF000#16) []
    ∧ decode [0xA4#8] = .instr .movsb [] ∧ decode [0xF4#8] = .instr .hlt []

/-- Decoding the encoding of a well-formed instruction gives it back. -/
def Obligations.DecodeOfEncode : Prop :=
  ∀ (i : Instr) (rest : List Byte), i.wf = true → decode (encode i ++ rest) = .instr i rest

/-- Every instruction has one encoding: what decodes is the encoding of what it decodes to. -/
def Obligations.EncodeOfDecode : Prop :=
  ∀ (bs rest : List Byte) (i : Instr), decode bs = .instr i rest → i.wf = true ∧ bs = encode i ++ rest

/-- The invariant holds right after reset. The OPEN parameters are a free record under the constraints of R10 (DESIGN
CHOICE, Log 3). -/
def Obligations.InvariantHoldsAtReset : Prop :=
  Inv State.reset

/-- Every step keeps the invariant. The decode state and the canonical form of the memories are the model's own (DESIGN
CHOICE, Log 14). -/
def Obligations.InvariantIsKept : Prop :=
  ∀ s t : State, Inv s → step s = .next t → Inv t

/-- The state after reset, and the ROM and save bytes that the host gives. That a string of exactly SAVE_SIZE bytes is
stored verbatim is R592's; nothing is said of another length (Log 28). That a start builds a save memory of as many
bytes as the host sends is the model's choice (DESIGN CHOICE, Log 33). -/
def Obligations.ResetState : Prop :=
  (∀ (c : Cfg) (o : OpenCfg) (rom : Rom) (save : SaveMem) (m : HostMode) (l : List (Word × Byte)),
      let s := State.resetWith c o rom save m l
      s.segs = { es := 0x0000#16, cs := 0xFFFF#16, ss := 0x0000#16, ds := 0x0000#16 } ∧ s.ip = 0x0000#16
      ∧ phys s.segs.cs s.ip = 0xFFFF0#20
      ∧ s.flags = c.flagsFixedOne ∧ s.halted = false ∧ s.shadow = false ∧ s.diag = [] ∧ s.faults = []
      ∧ s.ic.pending = 0#8 ∧ s.ic.enable = 0#8
      ∧ (s.timers.length = c.timerCount ∧ ∀ t ∈ s.timers, t.count = 0#16 ∧ t.reload = 0#16 ∧ t.en = false ∧ t.auto = false)
      ∧ (s.ppu.line = 0 ∧ s.ppu.dot = 0 ∧ s.ppu.mode = .visible ∧ s.ppu.pctl = 0#8 ∧ s.ppu.vblankEdge = false
        ∧ s.ppu.fbDone = none)
      ∧ (s.apu.length = o.channels.length ∧ ∀ ch ∈ s.apu, ch = {})
      ∧ s.banks = ⟨0xFF#8, 0xFF#8, 0xFF#8, 0xFF#8⟩ ∧ s.rem = ⟨0, 0, 0⟩
      ∧ (c.resetGpr = .unset → ∀ r, s.unset.get r = ⟨true, true⟩ ∧ unsetWordReads s r ≠ [])
      ∧ (c.resetGpr = .zero → ∀ r, s.reg16 r = 0#16 ∧ unsetWordReads s r = [])
      ∧ (c.resetRam = .unset → ∀ i, s.unsetPlace (.ram i) = [.readUnset (.ram i)])
      ∧ (c.resetRam = .zero → ∀ i, s.readPlace (.ram i) = 0#8 ∧ s.unsetPlace (.ram i) = [])
      ∧ s.rom = rom ∧ s.save = save)
    ∧ (∀ (c : Cfg) (o : OpenCfg) (f : RomFile) (m : HostMode) (bytes : List Byte) (l : List (Word × Byte)) (s : State),
      start c o f m bytes l = .ok s →
      (∃ rom save, s = State.resetWith c o rom save m l) ∧ s.save.size = bytes.length ∧ s.saveOut = bytes
      ∧ match f with
        | .absent => s.rom.len = c.defaultRomSize ∧ ∀ i, s.readPlace (.rom i) = 0#8
        | .image bs => s.rom.len = bs.length ∧ ∀ i, i < bs.length → some (s.readPlace (.rom i)) = bs[i]?
        | .unreadable => False)
    ∧ (∀ (s : State) (bs : List Byte), bs.length = s.save.size →
      (s.saveIn bs).saveOut = bs ∧ s.saveIn bs = { s with save := { s.save with cells := (s.saveIn bs).save.cells } })
    ∧ State.reset.flags = 0xF002#16 ∧ ∀ f, State.reset.flag f = false

/-- Every read of an unset register or RAM byte by an instruction is recorded, and a write clears the mark. The order and
number of the entries and the value 0 that an unset register holds are the model's choices (DESIGN CHOICE, Logs 4 and
22). -/
def Obligations.UnsetReadsAreRecorded : Prop :=
  (∀ (i : Instr) (s : State), Answers i s fun t =>
      t.faults = s.faults ++ entriesOfInstr i s t
      ∧ (∀ q, unsetByteReads t q = unsetByteReads s q ∨ unsetByteReads t q = [])
      ∧ (∀ r, unsetWordReads s r = [] → unsetWordReads t r = [])
      ∧ (∀ q, t.reg8 q ≠ s.reg8 q → unsetByteReads t q = [])
      ∧ (∀ r, r ∈ [Reg16.sp, .bp, .si, .di] → t.reg16 r ≠ s.reg16 r → unsetWordReads t r = [])
      ∧ (∀ p, placeReads t p = placeReads s p ∨ placeReads t p = [])
      ∧ (∀ p, t.readPlace p ≠ s.readPlace p → placeReads t p = []))
  ∧ (∀ (s : State) (n : Byte) (ret : Word), (s.enter n ret).faults = s.faults ++ entryEntries s (s.enter n ret) n)
  ∧ (∀ (s : State) (g q : Reg8) (r p : Reg16) (off : Word),
      (Answers (.movGvEv r (.reg p)) s fun t => t.faults = s.faults ++ unsetWordReads s p
        ∧ t.reg16 r = s.reg16 p ∧ t.unset.get r = ⟨false, false⟩ ∧ unsetWordReads t r = [])
      ∧ (Answers (.movGbEb g (.reg q)) s fun t => t.faults = s.faults ++ unsetByteReads s q
        ∧ t.reg8 g = s.reg8 q ∧ unsetByteReads t g = [])
      ∧ (Answers (.movAlOb off) s fun t => t.reg8 .al = s.mem8 (sourceSeg s) off ∧ t.faults = s.faults
          ++ (match s.locate (phys (sourceSeg s) off) with
              | .ram i => if s.cfg.resetRam = .unset ∧ ∀ c ∈ s.ram, c.1 ≠ i then [.readUnset (.ram i)] else []
              | _ => []))
      ∧ ∀ (sg : Word) (v : Byte) (i : Nat), s.locate (phys sg off) = .ram i → s.cfg.resetRam = .unset →
          ∃ c ∈ (s.writeMem8 sg off v).ram, c = (i, v))

/-- No step removes a diagnostic or a fault record. -/
def Obligations.LogsOnlyGrow : Prop :=
  ∀ s t : State, step s = .next t → s.diag <+: t.diag ∧ s.faults <+: t.faults

/-- Which instructions write each segment register. -/
def Obligations.SegmentWriters : Prop :=
  ∀ (i : Instr) (s t : State), exec i s = .next t →
    (t.segs.cs ≠ s.segs.cs → writesCs i = true)
    ∧ (t.segs.es ≠ s.segs.es → writesData .es i = true) ∧ (t.segs.ss ≠ s.segs.ss → writesData .ss i = true)
    ∧ (t.segs.ds ≠ s.segs.ds → writesData .ds i = true)

/-- highestPending answers the pending and enabled source of the highest priority. -/
def Obligations.TopSourceIsTaken : Prop :=
  ∀ s : State, s.ext.wf s.cfg = true →
    (s.highestPending = none ↔ ∀ k, k < s.ext.nSources → ¬(s.ic.pending.getLsbD k = true ∧ s.ic.enable.getLsbD k = true))
    ∧ ∀ k, s.highestPending = some k →
        k < s.ext.nSources ∧ s.ic.pending.getLsbD k = true ∧ s.ic.enable.getLsbD k = true
        ∧ ∀ j, j < s.ext.nSources → j ≠ k → s.ic.pending.getLsbD j = true → s.ic.enable.getLsbD j = true →
            s.ext.priority.getD j 0 < s.ext.priority.getD k 0

/-- Raising latches one pending bit, acknowledging clears it. The record of raised sources is the model's own field
(DESIGN CHOICE, Log 30). -/
def Obligations.RaiseAndAcknowledge : Prop :=
  ∀ (s : State) (k j : Nat), s.ext.nSources ≤ 8 → k < s.ext.nSources → j < 8 →
    ((s.raiseSource k).ic.pending.getLsbD j = (decide (j = k) || s.ic.pending.getLsbD j))
    ∧ (s.raiseSource k).raiseSource k = s.raiseSource k
    ∧ ((s.acknowledge k).ic.pending.getLsbD j = (decide (j ≠ k) && s.ic.pending.getLsbD j))
    ∧ ((s.raiseSource k).raised.getLsbD j = (decide (j = k) || s.raised.getLsbD j))
    ∧ s.raiseSource k = { s with
        ic := { enable := s.ic.enable, pending := (s.raiseSource k).ic.pending }
        raised := (s.raiseSource k).raised }
    ∧ s.acknowledge k = { s with ic := { enable := s.ic.enable, pending := (s.acknowledge k).ic.pending } }

/-- With IF = 1 and no shadow the pending and enabled source is taken, and no instruction runs. That the CPU acknowledges
is the spec's own choice (R476: "The spec's choice is that the CPU does so on acceptance"). -/
def Obligations.InterruptAcceptance : Prop :=
  ∀ (s : State) (k : Nat), s.flag .if_ = true → s.shadow = false → s.highestPending = some k →
    ∃ t, s.cpuStep = .next (t, some s.ext.intEntryCycles) ∧ Entered (s.acknowledge k) (s.ext.vectorOf.getD k 0#8) s.ip t
      ∧ step s = .next (t.advanceDevices s.ext.intEntryCycles).endStep

/-- The halted step, and waking without acceptance. -/
def Obligations.HaltAndWake : Prop :=
  (∀ s : State, s.cur = {} → s.halted = true →
      ((s.flag .if_ = true → s.shadow = false → s.highestPending = none) →
        (s.cfg.haltWakeIgnoresIf = true → s.highestPending = none) →
        ∃ t, step s = .next t ∧ t = (s.advanceDevices s.ext.haltQuantum).endStep ∧ SameCpu s t
          ∧ t.elapsed = s.elapsed + s.ext.haltQuantum ∧ t.ic.enable = s.ic.enable)
      ∧ (s.flag .if_ = false → (s.cfg.haltWakeIgnoresIf = false ∨ s.ic.enable = 0#8) →
        ∃ t, step s = .next t ∧ t = (s.advanceDevices s.ext.haltQuantum).endStep ∧ SameCpu s t
          ∧ t.ic.enable = s.ic.enable))
  ∧ (∀ s : State, s.halted = true → s.flag .if_ = false → s.cfg.haltWakeIgnoresIf = true → s.highestPending ≠ none →
      s.cpuStep = ({ s with halted := false } : State).cpuStep
        ∧ s.cpuStep = ({ s with halted := false } : State).runInstr)

/-- An instruction that began with TF = 1 is followed by the single-step trap. -/
def Obligations.SingleStepTrap : Prop :=
  ∀ (s t : State) (c : Nat), (started s).execute = .next (t, some c) →
    (if t.cfg.singleStep = true ∧ flagGet s.flags .tf = true ∧ t.cur.entered = false then
      ∃ u, s.runInstr = .next (u, some (c + t.ext.intEntryCycles)) ∧ Entered t 1#8 t.ip u
     else s.runInstr = .next (t, some c))

/-- The tick of a timer unit: its period, its one-shot stop and the source it raises. The record of raised sources is the
model's own field (DESIGN CHOICE, Log 30). -/
def Obligations.TimerTicks : Prop :=
  (∀ (t : Timer) (n : Nat),
      (∀ f, t.en = false → timerStep f t = (t, false))
      ∧ (t.en = true → t.count ≠ 0#16 →
          timerStep .onBorrowFromZero t = ({ t with count := t.count - 1#16 }, false)
          ∧ (t.count ≠ 1#16 → timerStep .onReachZero t = ({ t with count := t.count - 1#16 }, false)))
      ∧ (t.en = true → t.auto = true →
          (t.count = 0#16 → timerStep .onBorrowFromZero t = ({ t with count := t.reload }, true))
          ∧ (t.count.toNat ≤ 1 → timerStep .onReachZero t = ({ t with count := t.reload }, true)))
      ∧ (t.en = true → t.auto = false →
          (t.count = 0#16 → timerStep .onBorrowFromZero t = ({ t with en := false }, true))
          ∧ (t.count.toNat ≤ 1 → timerStep .onReachZero t = ({ t with en := false, count := 0#16 }, true)))
      ∧ (t.en = true → t.auto = true → t.count = t.reload →
          (n ≤ t.reload.toNat →
            timerAfter .onBorrowFromZero n t = { t with count := t.reload - BitVec.ofNat 16 n }
            ∧ firesAfter .onBorrowFromZero n t = decide (n = t.reload.toNat))
          ∧ timerAfter .onBorrowFromZero (t.reload.toNat + 1) t = t
          ∧ (n < max 1 t.reload.toNat →
            timerAfter .onReachZero n t = { t with count := t.reload - BitVec.ofNat 16 n }
            ∧ firesAfter .onReachZero n t = decide (n + 1 = max 1 t.reload.toNat))
          ∧ timerAfter .onReachZero (max 1 t.reload.toNat) t = t)
      ∧ ∀ f, (timerStep f t).2 = true → t.auto = false → (timerStep f t).1 = { t with en := false, count := 0#16 })
  ∧ (∀ (s : State) (k : Nat) (u : TimerUnit), k < s.timers.length →
      (s.timerTick k u).timer k = (timerStep s.cfg.timerFire (s.timer k)).1
      ∧ (∀ j, j ≠ k → (s.timerTick k u).timer j = s.timer j)
      ∧ (s.timerTick k u).ic = (if (timerStep s.cfg.timerFire (s.timer k)).2 = true then (s.raiseSource u.src).ic else s.ic)
      ∧ (s.timerTick k u).raised
        = (if (timerStep s.cfg.timerFire (s.timer k)).2 = true then (s.raiseSource u.src).raised else s.raised)
      ∧ s.timerTick k u = { s with
          timers := (s.timerTick k u).timers
          ic := (s.timerTick k u).ic
          raised := (s.timerTick k u).raised })

/-- One PPU dot: position, mode, the two interrupts, the row composed and the publication. The tile, sprite and palette
functions are free (DESIGN CHOICE, Log 8); that the working buffer holds the rows composed so far is the model's
choice (DESIGN CHOICE, Log 19), and the record of raised sources is the model's own field (DESIGN CHOICE, Log 30). -/
def Obligations.PpuSequence : Prop :=
  (∀ s : State, s.ext.wf s.cfg = true → PpuOk s.ext s.ppu →
    let t := s.ppuDot
    let hb := s.ppu.dot + 1 = s.ext.visibleDots ∧ s.ppu.line < s.ext.visibleLines
    let vb := s.ppu.dot + 1 = s.ext.lineDots ∧ s.ppu.line + 1 = s.ext.visibleLines
    PpuOk s.ext t.ppu
    ∧ framePosition s.ext t.ppu = (framePosition s.ext s.ppu + 1) % (s.ext.totalLines * s.ext.lineDots)
    ∧ (∀ j, j < 8 → t.ic.pending.getLsbD j
        = (s.ic.pending.getLsbD j || decide (hb ∧ j = s.ext.hblankSrc) || decide (vb ∧ j = s.ext.vblankSrc)))
    ∧ t.ic.enable = s.ic.enable ∧ t.ppu.pctl = s.ppu.pctl
    ∧ (vb → t.ppu.fbDone = some t.ppu.fbWork ∧ t.ppu.vblankEdge = true)
    ∧ (¬vb → t.ppu.fbDone = s.ppu.fbDone ∧ t.ppu.vblankEdge = s.ppu.vblankEdge)
    ∧ (∀ j, j < 8 → t.raised.getLsbD j
        = (s.raised.getLsbD j || decide (hb ∧ j = s.ext.hblankSrc) || decide (vb ∧ j = s.ext.vblankSrc)))
    ∧ t = { s with ppu := t.ppu, ic := t.ic, raised := t.raised })
  ∧ (∀ s : State,
      let t := s.ppuDot
      let y := s.ppu.line
      (s.ppu.dot + 1 = s.ext.lineDots ∧ y < s.ext.visibleLines →
        ∃ row, t.ppu.fbWork[y]? = some row ∧ row.length = s.ext.visibleDots
          ∧ (∀ x, x < s.ext.visibleDots → row[x]? = some (pixelAt s.ext s.ppu.pctl s.ram y x))
          ∧ ∀ j, j < s.ppu.fbWork.length → j ≠ y → t.ppu.fbWork[j]? = s.ppu.fbWork[j]?)
      ∧ (¬(s.ppu.dot + 1 = s.ext.lineDots ∧ y < s.ext.visibleLines) → t.ppu.fbWork = s.ppu.fbWork))

/-- One APU tick: divider, phase and envelope of every channel, the clipped sum of their outputs, and mute. The LFSR step
and a replaced envelope step are free functions (DESIGN CHOICE, Log 9), and the clipping where MIX_MIN is above
MIX_MAX is the model's choice (DESIGN CHOICE, Log 26). -/
def Obligations.ApuTickAndMute : Prop :=
  ∀ s : State,
    s.apuTick.apu.length = s.apu.length
    ∧ (∀ (k : Nat) (u : ChannelUnit) (c : Channel), s.ext.channels[k]? = some u → s.apu[k]? = some c →
      ∃ d, s.apuTick.apu[k]? = some d
        ∧ (c.ctrl.getLsbD 0 = false → d = c)
        ∧ (c.ctrl.getLsbD 0 = true →
          let rate := c.envReg.toNat % 64
          let dir := c.envReg.toNat / 64
          (c.div ≠ 0#16 → d.div = c.div - 1#16 ∧ d.phase = c.phase)
          ∧ (c.div = 0#16 → d.div = c.period
            ∧ match u.kind with
              | .square => d.phase.toNat = (c.phase.toNat + 1) % 8
              | .noise => d.phase = Config.lfsrStep c.phase
              | .pcm => d.phase.toNat = c.data.toNat)
          ∧ (rate = 0 ∨ dir = 0 ∨ dir = 3 → d.env = c.env ∧ d.vol = c.vol)
          ∧ (rate ≠ 0 → dir = 1 ∨ dir = 2 → c.env ≠ 0#8 → d.env = c.env - 1#8 ∧ d.vol = c.vol)
          ∧ (rate ≠ 0 → dir = 1 ∨ dir = 2 → c.env = 0#8 → d.env.toNat = rate
            ∧ match s.cfg.envelopeStep with
              | .standard => d.vol.toNat = if dir = 1 then min (c.vol.toNat + 1) 15 else c.vol.toNat - 1
              | .custom => d.vol = Config.envelopeStep c.vol (dir == 1))
          ∧ d = { c with div := d.div, phase := d.phase, env := d.env, vol := d.vol }))
    ∧ (s.mode = .normal → s.apuTick.samples = s.samples
        ++ [max s.ext.mixMin
          (min ((s.ext.channels.zip s.apuTick.apu).map fun p => outputOf p.1.kind p.2).sum s.ext.mixMax)])
    ∧ (s.mode ≠ .normal → s.apuTick.samples = s.samples)
    ∧ (∀ m, ({ s with mode := m } : State).apuTick.apu = s.apuTick.apu)
    ∧ s.apuTick = { s with apu := s.apuTick.apu, samples := s.apuTick.samples }

/-- The ports of the interrupt controller, the PPU and the mapper. That a port number reaches the port of its low
PORT_WIDTH bits is the model's choice for a width below 16 (DESIGN CHOICE, Log 29), and so is the form of the host's
input ports (DESIGN CHOICE, Log 21). -/
def Obligations.DevicePorts : Prop :=
  ∀ (s : State) (v : Byte), s.ext.wf s.cfg = true →
    let p := s.ext.icPorts
    let q := s.ext.ppuPorts
    let b := s.cfg.bankPorts
    let mask := BitVec.ofNat 8 (2 ^ s.ext.nSources - 1)
    (s.portRead8 p.enable = s.ic.enable ∧ s.portWrite8 p.enable v = { s with ic := { s.ic with enable := v &&& mask } })
    ∧ (s.portRead8 p.status = s.ic.pending ∧ s.portWrite8 p.status v = s)
    ∧ (s.portRead8 p.ack = s.ext.openBusPort
      ∧ s.portWrite8 p.ack v = { s with ic := { s.ic with pending := s.ic.pending &&& ~~~(v &&& mask) } })
    ∧ (s.portRead8 q.pctl = s.ppu.pctl ∧ s.portWrite8 q.pctl v = { s with ppu := { s.ppu with pctl := v } })
    ∧ (s.portRead8 q.line = BitVec.ofNat 8 s.ppu.line ∧ s.portWrite8 q.line v = s)
    ∧ (s.portRead8 b.lin = s.banks.lin ∧ s.portWrite8 b.lin v = { s with banks := { s.banks with lin := v } })
    ∧ (s.portRead8 b.save = s.banks.save ∧ s.portWrite8 b.save v = { s with banks := { s.banks with save := v } })
    ∧ (s.portRead8 b.rom0 = s.banks.rom0 ∧ s.portWrite8 b.rom0 v = { s with banks := { s.banks with rom0 := v } })
    ∧ (s.portRead8 b.rom1 = s.banks.rom1 ∧ s.portWrite8 b.rom1 v = { s with banks := { s.banks with rom1 := v } })
    ∧ ∀ a : Word, BitVec.ofNat 16 (a.toNat % 2 ^ s.cfg.portWidth) ∉ ownedPorts s.cfg s.ext → s.input = [] → s.portRead8 a = s.ext.openBusPort ∧ s.portWrite8 a v = s

/-- The ports of a timer unit: writes (R543, R544) and reads, which have no side effect (R545). -/
def Obligations.TimerPorts : Prop :=
  ∀ (s : State) (k : Nat) (u : TimerUnit) (t : Timer) (v : Byte), s.ext.wf s.cfg = true → s.ext.timers[k]? = some u →
    s.timers[k]? = some t →
    let put := fun d : Timer => ({ s with timers := s.timers.set k d } : State)
    ((s.portRead8 u.control).toNat = 2 * t.auto.toNat + t.en.toNat
      ∧ s.portWrite8 u.control v
        = put { t with
            en := v.getLsbD 0
            auto := v.getLsbD 1
            count := if t.en = false ∧ v.getLsbD 0 = true then t.reload else t.count })
    ∧ (s.portRead8 u.reloadLo = t.reload.setWidth 8
      ∧ s.portWrite8 u.reloadLo v = put { t with reload := hiByte t.reload ++ v })
    ∧ (s.portRead8 u.reloadHi = hiByte t.reload
      ∧ s.portWrite8 u.reloadHi v = put { t with reload := v ++ loByte t.reload })
    ∧ (s.portRead8 u.countLo = t.count.setWidth 8
      ∧ s.portWrite8 u.countLo v = put { t with count := hiByte t.count ++ v })
    ∧ (s.portRead8 u.countHi = hiByte t.count
      ∧ s.portWrite8 u.countHi v = put { t with count := v ++ loByte t.count })
    ∧ (u.countHi = u.countLo + 1#16 → s.portRead16 u.countLo = t.count)
    ∧ ∀ (p : Byte) (i : Instr) (r : State), i ∈ [.inAlIb p, .inAxIb p, .inAlDx, .inAxDx] → exec i s = .next r →
      r.timers = s.timers ∧ r.ic = s.ic

/-- The ports of an APU channel. A channel keeps its ENV and CTRL registers as whole bytes (DEDUCED, Log 18). -/
def Obligations.ApuPorts : Prop :=
  ∀ (s : State) (k : Nat) (u : ChannelUnit) (c : Channel) (v : Byte), s.ext.wf s.cfg = true →
    s.ext.channels[k]? = some u → s.apu[k]? = some c →
    let put := fun d : Channel => ({ s with apu := s.apu.set k d } : State)
    (s.portRead8 u.base = loByte c.period ∧ s.portWrite8 u.base v = put { c with period := hiByte c.period ++ v })
    ∧ (s.portRead8 (u.base + 1#16) = hiByte c.period
      ∧ s.portWrite8 (u.base + 1#16) v = put { c with period := v ++ loByte c.period })
    ∧ ((s.portRead8 (u.base + 2#16)).toNat = c.vol.toNat
      ∧ s.portWrite8 (u.base + 2#16) v = put { c with vol := BitVec.ofNat 4 v.toNat })
    ∧ (s.portRead8 (u.base + 3#16) = c.envReg ∧ s.portWrite8 (u.base + 3#16) v = put { c with envReg := v })
    ∧ (s.portRead8 (u.base + 4#16) = c.ctrl
      ∧ s.portWrite8 (u.base + 4#16) v
        = if c.ctrl.getLsbD 0 = false ∧ v.getLsbD 0 = true then
            put { c with
              ctrl := v
              div := c.period
              env := BitVec.ofNat 8 (c.envReg.toNat % 64)
              phase := match u.kind with | .noise => s.ext.lfsrSeed | .square => 0#15 | .pcm => 0#15 }
          else put { c with ctrl := v })
    ∧ (s.portRead8 (u.base + 5#16) = c.data ∧ s.portWrite8 (u.base + 5#16) v = put { c with data := v })

/-- A scheduler step: the exact clock conversion, the advance of every device, and the frame run. The order PPU, APU,
timer is the spec's own choice (R620: "The order PPU, then APU, then timer is the spec's choice (D47)"); that the
report's raised sources are a mask is the model's (DESIGN CHOICE, Log 30). -/
def Obligations.SchedulerStep : Prop :=
  (∀ (r : Ratio) (es : List Nat) (rem : Nat), rem < r.q →
      (convertAll r es rem).1 = (r.p * es.sum + rem) / r.q ∧ (convertAll r es rem).2 = (r.p * es.sum + rem) % r.q
      ∧ (convertAll r es rem).2 < r.q ∧ ((rem = 0) → (convertAll r es rem).1 = r.p * es.sum / r.q))
  ∧ (∀ (s : State) (e : Nat),
      let ppu := e * s.ext.dotsPerCycle.p + s.rem.ppu
      let apu := e * s.ext.apuTicksPerCycle.p + s.rem.apu
      let timer := e * s.ext.timerClock.p + s.rem.timer
      let t := Nat.repeat State.ppuDot (ppu / s.ext.dotsPerCycle.q) s
      let u := Nat.repeat State.apuTick (apu / s.ext.apuTicksPerCycle.q) t
      let v := Nat.repeat State.timerTickAll (timer / s.ext.timerClock.q) u
      s.advanceDevices e = { v with
        rem := ⟨ppu % s.ext.dotsPerCycle.q, apu % s.ext.apuTicksPerCycle.q, timer % s.ext.timerClock.q⟩
        elapsed := s.elapsed + e }
      ∧ s.timerTickAll = s.ext.timers.zipIdx.foldl (fun w x => w.timerTick x.2 x.1) s)
  ∧ (∀ (s t : State) (c : Option Nat), s.cpuStep = .next (t, c) →
      step s = .next { t.advanceDevices (match c with | some n => n | none => t.ext.haltQuantum) with cur := {} })
  ∧ (∀ (n : Nat) (s t : State) (r : FrameReport), runFrame n s = some (.next (r, t)) →
      ∃ k u, k < n ∧ runSteps (k + 1) { s with raised := 0#8 } = .next u ∧ u.ppu.vblankEdge = true
        ∧ (∀ j v, j < k → runSteps (j + 1) { s with raised := 0#8 } = .next v → v.ppu.vblankEdge = false)
        ∧ t = { u with ppu := { u.ppu with vblankEdge := false } }
        ∧ r = { cycles := u.elapsed - s.elapsed, raised := u.raised, frame := u.ppu.fbDone })
end

