-- ==== Sys2Proof/Laws/State.lean ====
section
/-! SUPPORT. What each update of the state leaves in each field and in each reading of the state: one lemma per
update and reading, so that no proof unfolds a record update. -/

namespace Sys2Proof.Machine

@[simp] theorem record_regs (s : State) (es : List FaultRecord) : (s.record es).regs = s.regs := rfl
@[simp] theorem record_unset (s : State) (es : List FaultRecord) : (s.record es).unset = s.unset := rfl
@[simp] theorem record_segs (s : State) (es : List FaultRecord) : (s.record es).segs = s.segs := rfl
@[simp] theorem record_ip (s : State) (es : List FaultRecord) : (s.record es).ip = s.ip := rfl
@[simp] theorem record_flags (s : State) (es : List FaultRecord) : (s.record es).flags = s.flags := rfl
@[simp] theorem record_halted (s : State) (es : List FaultRecord) : (s.record es).halted = s.halted := rfl
@[simp] theorem record_shadow (s : State) (es : List FaultRecord) : (s.record es).shadow = s.shadow := rfl
@[simp] theorem record_diag (s : State) (es : List FaultRecord) : (s.record es).diag = s.diag := rfl
@[simp] theorem record_faults (s : State) (es : List FaultRecord) : (s.record es).faults = s.faults ++ es := rfl
@[simp] theorem record_ic (s : State) (es : List FaultRecord) : (s.record es).ic = s.ic := rfl
@[simp] theorem record_timers (s : State) (es : List FaultRecord) : (s.record es).timers = s.timers := rfl
@[simp] theorem record_ppu (s : State) (es : List FaultRecord) : (s.record es).ppu = s.ppu := rfl
@[simp] theorem record_apu (s : State) (es : List FaultRecord) : (s.record es).apu = s.apu := rfl
@[simp] theorem record_banks (s : State) (es : List FaultRecord) : (s.record es).banks = s.banks := rfl
@[simp] theorem record_ram (s : State) (es : List FaultRecord) : (s.record es).ram = s.ram := rfl
@[simp] theorem record_rom (s : State) (es : List FaultRecord) : (s.record es).rom = s.rom := rfl
@[simp] theorem record_save (s : State) (es : List FaultRecord) : (s.record es).save = s.save := rfl
@[simp] theorem record_rem (s : State) (es : List FaultRecord) : (s.record es).rem = s.rem := rfl
@[simp] theorem record_elapsed (s : State) (es : List FaultRecord) : (s.record es).elapsed = s.elapsed := rfl
@[simp] theorem record_mode (s : State) (es : List FaultRecord) : (s.record es).mode = s.mode := rfl
@[simp] theorem record_samples (s : State) (es : List FaultRecord) : (s.record es).samples = s.samples := rfl
@[simp] theorem record_raised (s : State) (es : List FaultRecord) : (s.record es).raised = s.raised := rfl
@[simp] theorem record_trace (s : State) (es : List FaultRecord) : (s.record es).trace = s.trace := rfl
@[simp] theorem record_input (s : State) (es : List FaultRecord) : (s.record es).input = s.input := rfl
@[simp] theorem record_cfg (s : State) (es : List FaultRecord) : (s.record es).cfg = s.cfg := rfl
@[simp] theorem record_ext (s : State) (es : List FaultRecord) : (s.record es).ext = s.ext := rfl
@[simp] theorem record_cur (s : State) (es : List FaultRecord) : (s.record es).cur = s.cur := rfl
@[simp] theorem record_reg16 (s : State) (es : List FaultRecord) (q' : Reg16) : (s.record es).reg16 q' = s.reg16 q' := rfl
@[simp] theorem record_reg8 (s : State) (es : List FaultRecord) (q' : Reg8) : (s.record es).reg8 q' = s.reg8 q' := rfl
@[simp] theorem record_unset8 (s : State) (es : List FaultRecord) (q' : Reg8) : (s.record es).unset8 q' = s.unset8 q' := rfl
@[simp] theorem record_unset16 (s : State) (es : List FaultRecord) (q' : Reg16) : (s.record es).unset16 q' = s.unset16 q' := rfl
@[simp] theorem record_sreg (s : State) (es : List FaultRecord) (q' : SReg) : (s.record es).sreg q' = s.sreg q' := rfl
@[simp] theorem record_flag (s : State) (es : List FaultRecord) (q' : Flag) : (s.record es).flag q' = s.flag q' := rfl
@[simp] theorem record_locate (s : State) (es : List FaultRecord) (a' : Phys) : (s.record es).locate a' = s.locate a' := rfl
@[simp] theorem record_readPlace (s : State) (es : List FaultRecord) (p' : Place) : (s.record es).readPlace p' = s.readPlace p' := rfl
@[simp] theorem record_busRead8 (s : State) (es : List FaultRecord) (a' : Phys) : (s.record es).busRead8 a' = s.busRead8 a' := rfl
@[simp] theorem record_mem8 (s : State) (es : List FaultRecord) (sg' off' : Word) : (s.record es).mem8 sg' off' = s.mem8 sg' off' := rfl
@[simp] theorem record_mem16 (s : State) (es : List FaultRecord) (sg' off' : Word) : (s.record es).mem16 sg' off' = s.mem16 sg' off' := rfl
@[simp] theorem record_unsetPlace (s : State) (es : List FaultRecord) (p' : Place) : (s.record es).unsetPlace p' = s.unsetPlace p' := rfl
@[simp] theorem record_unsetMem8 (s : State) (es : List FaultRecord) (sg' off' : Word) : (s.record es).unsetMem8 sg' off' = s.unsetMem8 sg' off' := rfl
@[simp] theorem record_unsetMem16 (s : State) (es : List FaultRecord) (sg' off' : Word) : (s.record es).unsetMem16 sg' off' = s.unsetMem16 sg' off' := rfl
@[simp] theorem record_eaOff (s : State) (es : List FaultRecord) (m' : Mem) : (s.record es).eaOff m' = s.eaOff m' := rfl
@[simp] theorem record_eaSeg (s : State) (es : List FaultRecord) (m' : Mem) : (s.record es).eaSeg m' = s.eaSeg m' := rfl
@[simp] theorem record_segOr (s : State) (es : List FaultRecord) (d' : SReg) : (s.record es).segOr d' = s.segOr d' := rfl
@[simp] theorem record_loc8 (s : State) (es : List FaultRecord) (e' : Rm8) : (s.record es).loc8 e' = s.loc8 e' := rfl
@[simp] theorem record_loc16 (s : State) (es : List FaultRecord) (e' : Rm16) : (s.record es).loc16 e' = s.loc16 e' := rfl
@[simp] theorem record_read8 (s : State) (es : List FaultRecord) (l' : Loc8) : (s.record es).read8 l' = s.read8 l' := rfl
@[simp] theorem record_read16 (s : State) (es : List FaultRecord) (l' : Loc16) : (s.record es).read16 l' = s.read16 l' := rfl
@[simp] theorem record_rm8 (s : State) (es : List FaultRecord) (e' : Rm8) : (s.record es).rm8 e' = s.rm8 e' := rfl
@[simp] theorem record_rm16 (s : State) (es : List FaultRecord) (e' : Rm16) : (s.record es).rm16 e' = s.rm16 e' := rfl
@[simp] theorem record_ipNext (s : State) (es : List FaultRecord) (i' : Instr) : (s.record es).ipNext i' = s.ipNext i' := rfl
@[simp] theorem record_delta (s : State) (es : List FaultRecord) (n' : Word) : (s.record es).delta n' = s.delta n' := rfl
@[simp] theorem record_top (s : State) (es : List FaultRecord) : (s.record es).top = s.top := rfl
@[simp] theorem record_portOwner (s : State) (es : List FaultRecord) (p' : Word) : (s.record es).portOwner p' = s.portOwner p' := rfl
@[simp] theorem record_portRead8 (s : State) (es : List FaultRecord) (p' : Word) : (s.record es).portRead8 p' = s.portRead8 p' := rfl
@[simp] theorem record_highestPending (s : State) (es : List FaultRecord) : (s.record es).highestPending = s.highestPending := rfl
@[simp] theorem record_shiftCount (s : State) (es : List FaultRecord) (c' : Byte) : (s.record es).shiftCount c' = s.shiftCount c' := rfl
@[simp] theorem record_timer (s : State) (es : List FaultRecord) (j' : Nat) : (s.record es).timer j' = s.timer j' := rfl
@[simp] theorem record_channel (s : State) (es : List FaultRecord) (j' : Nat) : (s.record es).channel j' = s.channel j' := rfl

@[simp] theorem setReg16_regs (s : State) (r : Reg16) (v : Word) : (s.setReg16 r v).regs = s.regs.set r v := rfl
@[simp] theorem setReg16_unset (s : State) (r : Reg16) (v : Word) : (s.setReg16 r v).unset = s.unset.set r ⟨false, false⟩ := rfl
@[simp] theorem setReg16_segs (s : State) (r : Reg16) (v : Word) : (s.setReg16 r v).segs = s.segs := rfl
@[simp] theorem setReg16_ip (s : State) (r : Reg16) (v : Word) : (s.setReg16 r v).ip = s.ip := rfl
@[simp] theorem setReg16_flags (s : State) (r : Reg16) (v : Word) : (s.setReg16 r v).flags = s.flags := rfl
@[simp] theorem setReg16_halted (s : State) (r : Reg16) (v : Word) : (s.setReg16 r v).halted = s.halted := rfl
@[simp] theorem setReg16_shadow (s : State) (r : Reg16) (v : Word) : (s.setReg16 r v).shadow = s.shadow := rfl
@[simp] theorem setReg16_diag (s : State) (r : Reg16) (v : Word) : (s.setReg16 r v).diag = s.diag := rfl
@[simp] theorem setReg16_faults (s : State) (r : Reg16) (v : Word) : (s.setReg16 r v).faults = s.faults := rfl
@[simp] theorem setReg16_ic (s : State) (r : Reg16) (v : Word) : (s.setReg16 r v).ic = s.ic := rfl
@[simp] theorem setReg16_timers (s : State) (r : Reg16) (v : Word) : (s.setReg16 r v).timers = s.timers := rfl
@[simp] theorem setReg16_ppu (s : State) (r : Reg16) (v : Word) : (s.setReg16 r v).ppu = s.ppu := rfl
@[simp] theorem setReg16_apu (s : State) (r : Reg16) (v : Word) : (s.setReg16 r v).apu = s.apu := rfl
@[simp] theorem setReg16_banks (s : State) (r : Reg16) (v : Word) : (s.setReg16 r v).banks = s.banks := rfl
@[simp] theorem setReg16_ram (s : State) (r : Reg16) (v : Word) : (s.setReg16 r v).ram = s.ram := rfl
@[simp] theorem setReg16_rom (s : State) (r : Reg16) (v : Word) : (s.setReg16 r v).rom = s.rom := rfl
@[simp] theorem setReg16_save (s : State) (r : Reg16) (v : Word) : (s.setReg16 r v).save = s.save := rfl
@[simp] theorem setReg16_rem (s : State) (r : Reg16) (v : Word) : (s.setReg16 r v).rem = s.rem := rfl
@[simp] theorem setReg16_elapsed (s : State) (r : Reg16) (v : Word) : (s.setReg16 r v).elapsed = s.elapsed := rfl
@[simp] theorem setReg16_mode (s : State) (r : Reg16) (v : Word) : (s.setReg16 r v).mode = s.mode := rfl
@[simp] theorem setReg16_samples (s : State) (r : Reg16) (v : Word) : (s.setReg16 r v).samples = s.samples := rfl
@[simp] theorem setReg16_raised (s : State) (r : Reg16) (v : Word) : (s.setReg16 r v).raised = s.raised := rfl
@[simp] theorem setReg16_trace (s : State) (r : Reg16) (v : Word) : (s.setReg16 r v).trace = s.trace := rfl
@[simp] theorem setReg16_input (s : State) (r : Reg16) (v : Word) : (s.setReg16 r v).input = s.input := rfl
@[simp] theorem setReg16_cfg (s : State) (r : Reg16) (v : Word) : (s.setReg16 r v).cfg = s.cfg := rfl
@[simp] theorem setReg16_ext (s : State) (r : Reg16) (v : Word) : (s.setReg16 r v).ext = s.ext := rfl
@[simp] theorem setReg16_cur (s : State) (r : Reg16) (v : Word) : (s.setReg16 r v).cur = s.cur := rfl
@[simp] theorem setReg16_sreg (s : State) (r : Reg16) (v : Word) (q' : SReg) : (s.setReg16 r v).sreg q' = s.sreg q' := rfl
@[simp] theorem setReg16_flag (s : State) (r : Reg16) (v : Word) (q' : Flag) : (s.setReg16 r v).flag q' = s.flag q' := rfl
@[simp] theorem setReg16_locate (s : State) (r : Reg16) (v : Word) (a' : Phys) : (s.setReg16 r v).locate a' = s.locate a' := rfl
@[simp] theorem setReg16_readPlace (s : State) (r : Reg16) (v : Word) (p' : Place) : (s.setReg16 r v).readPlace p' = s.readPlace p' := rfl
@[simp] theorem setReg16_busRead8 (s : State) (r : Reg16) (v : Word) (a' : Phys) : (s.setReg16 r v).busRead8 a' = s.busRead8 a' := rfl
@[simp] theorem setReg16_mem8 (s : State) (r : Reg16) (v : Word) (sg' off' : Word) : (s.setReg16 r v).mem8 sg' off' = s.mem8 sg' off' := rfl
@[simp] theorem setReg16_mem16 (s : State) (r : Reg16) (v : Word) (sg' off' : Word) : (s.setReg16 r v).mem16 sg' off' = s.mem16 sg' off' := rfl
@[simp] theorem setReg16_unsetPlace (s : State) (r : Reg16) (v : Word) (p' : Place) : (s.setReg16 r v).unsetPlace p' = s.unsetPlace p' := rfl
@[simp] theorem setReg16_unsetMem8 (s : State) (r : Reg16) (v : Word) (sg' off' : Word) : (s.setReg16 r v).unsetMem8 sg' off' = s.unsetMem8 sg' off' := rfl
@[simp] theorem setReg16_unsetMem16 (s : State) (r : Reg16) (v : Word) (sg' off' : Word) : (s.setReg16 r v).unsetMem16 sg' off' = s.unsetMem16 sg' off' := rfl
@[simp] theorem setReg16_eaSeg (s : State) (r : Reg16) (v : Word) (m' : Mem) : (s.setReg16 r v).eaSeg m' = s.eaSeg m' := rfl
@[simp] theorem setReg16_segOr (s : State) (r : Reg16) (v : Word) (d' : SReg) : (s.setReg16 r v).segOr d' = s.segOr d' := rfl
@[simp] theorem setReg16_ipNext (s : State) (r : Reg16) (v : Word) (i' : Instr) : (s.setReg16 r v).ipNext i' = s.ipNext i' := rfl
@[simp] theorem setReg16_delta (s : State) (r : Reg16) (v : Word) (n' : Word) : (s.setReg16 r v).delta n' = s.delta n' := rfl
@[simp] theorem setReg16_portOwner (s : State) (r : Reg16) (v : Word) (p' : Word) : (s.setReg16 r v).portOwner p' = s.portOwner p' := rfl
@[simp] theorem setReg16_portRead8 (s : State) (r : Reg16) (v : Word) (p' : Word) : (s.setReg16 r v).portRead8 p' = s.portRead8 p' := rfl
@[simp] theorem setReg16_highestPending (s : State) (r : Reg16) (v : Word) : (s.setReg16 r v).highestPending = s.highestPending := rfl
@[simp] theorem setReg16_shiftCount (s : State) (r : Reg16) (v : Word) (c' : Byte) : (s.setReg16 r v).shiftCount c' = s.shiftCount c' := rfl
@[simp] theorem setReg16_timer (s : State) (r : Reg16) (v : Word) (j' : Nat) : (s.setReg16 r v).timer j' = s.timer j' := rfl
@[simp] theorem setReg16_channel (s : State) (r : Reg16) (v : Word) (j' : Nat) : (s.setReg16 r v).channel j' = s.channel j' := rfl

@[simp] theorem setReg8_segs (s : State) (r : Reg8) (v : Byte) : (s.setReg8 r v).segs = s.segs := rfl
@[simp] theorem setReg8_ip (s : State) (r : Reg8) (v : Byte) : (s.setReg8 r v).ip = s.ip := rfl
@[simp] theorem setReg8_flags (s : State) (r : Reg8) (v : Byte) : (s.setReg8 r v).flags = s.flags := rfl
@[simp] theorem setReg8_halted (s : State) (r : Reg8) (v : Byte) : (s.setReg8 r v).halted = s.halted := rfl
@[simp] theorem setReg8_shadow (s : State) (r : Reg8) (v : Byte) : (s.setReg8 r v).shadow = s.shadow := rfl
@[simp] theorem setReg8_diag (s : State) (r : Reg8) (v : Byte) : (s.setReg8 r v).diag = s.diag := rfl
@[simp] theorem setReg8_faults (s : State) (r : Reg8) (v : Byte) : (s.setReg8 r v).faults = s.faults := rfl
@[simp] theorem setReg8_ic (s : State) (r : Reg8) (v : Byte) : (s.setReg8 r v).ic = s.ic := rfl
@[simp] theorem setReg8_timers (s : State) (r : Reg8) (v : Byte) : (s.setReg8 r v).timers = s.timers := rfl
@[simp] theorem setReg8_ppu (s : State) (r : Reg8) (v : Byte) : (s.setReg8 r v).ppu = s.ppu := rfl
@[simp] theorem setReg8_apu (s : State) (r : Reg8) (v : Byte) : (s.setReg8 r v).apu = s.apu := rfl
@[simp] theorem setReg8_banks (s : State) (r : Reg8) (v : Byte) : (s.setReg8 r v).banks = s.banks := rfl
@[simp] theorem setReg8_ram (s : State) (r : Reg8) (v : Byte) : (s.setReg8 r v).ram = s.ram := rfl
@[simp] theorem setReg8_rom (s : State) (r : Reg8) (v : Byte) : (s.setReg8 r v).rom = s.rom := rfl
@[simp] theorem setReg8_save (s : State) (r : Reg8) (v : Byte) : (s.setReg8 r v).save = s.save := rfl
@[simp] theorem setReg8_rem (s : State) (r : Reg8) (v : Byte) : (s.setReg8 r v).rem = s.rem := rfl
@[simp] theorem setReg8_elapsed (s : State) (r : Reg8) (v : Byte) : (s.setReg8 r v).elapsed = s.elapsed := rfl
@[simp] theorem setReg8_mode (s : State) (r : Reg8) (v : Byte) : (s.setReg8 r v).mode = s.mode := rfl
@[simp] theorem setReg8_samples (s : State) (r : Reg8) (v : Byte) : (s.setReg8 r v).samples = s.samples := rfl
@[simp] theorem setReg8_raised (s : State) (r : Reg8) (v : Byte) : (s.setReg8 r v).raised = s.raised := rfl
@[simp] theorem setReg8_trace (s : State) (r : Reg8) (v : Byte) : (s.setReg8 r v).trace = s.trace := rfl
@[simp] theorem setReg8_input (s : State) (r : Reg8) (v : Byte) : (s.setReg8 r v).input = s.input := rfl
@[simp] theorem setReg8_cfg (s : State) (r : Reg8) (v : Byte) : (s.setReg8 r v).cfg = s.cfg := rfl
@[simp] theorem setReg8_ext (s : State) (r : Reg8) (v : Byte) : (s.setReg8 r v).ext = s.ext := rfl
@[simp] theorem setReg8_cur (s : State) (r : Reg8) (v : Byte) : (s.setReg8 r v).cur = s.cur := rfl
@[simp] theorem setReg8_sreg (s : State) (r : Reg8) (v : Byte) (q' : SReg) : (s.setReg8 r v).sreg q' = s.sreg q' := rfl
@[simp] theorem setReg8_flag (s : State) (r : Reg8) (v : Byte) (q' : Flag) : (s.setReg8 r v).flag q' = s.flag q' := rfl
@[simp] theorem setReg8_locate (s : State) (r : Reg8) (v : Byte) (a' : Phys) : (s.setReg8 r v).locate a' = s.locate a' := rfl
@[simp] theorem setReg8_readPlace (s : State) (r : Reg8) (v : Byte) (p' : Place) : (s.setReg8 r v).readPlace p' = s.readPlace p' := rfl
@[simp] theorem setReg8_busRead8 (s : State) (r : Reg8) (v : Byte) (a' : Phys) : (s.setReg8 r v).busRead8 a' = s.busRead8 a' := rfl
@[simp] theorem setReg8_mem8 (s : State) (r : Reg8) (v : Byte) (sg' off' : Word) : (s.setReg8 r v).mem8 sg' off' = s.mem8 sg' off' := rfl
@[simp] theorem setReg8_mem16 (s : State) (r : Reg8) (v : Byte) (sg' off' : Word) : (s.setReg8 r v).mem16 sg' off' = s.mem16 sg' off' := rfl
@[simp] theorem setReg8_unsetPlace (s : State) (r : Reg8) (v : Byte) (p' : Place) : (s.setReg8 r v).unsetPlace p' = s.unsetPlace p' := rfl
@[simp] theorem setReg8_unsetMem8 (s : State) (r : Reg8) (v : Byte) (sg' off' : Word) : (s.setReg8 r v).unsetMem8 sg' off' = s.unsetMem8 sg' off' := rfl
@[simp] theorem setReg8_unsetMem16 (s : State) (r : Reg8) (v : Byte) (sg' off' : Word) : (s.setReg8 r v).unsetMem16 sg' off' = s.unsetMem16 sg' off' := rfl
@[simp] theorem setReg8_eaSeg (s : State) (r : Reg8) (v : Byte) (m' : Mem) : (s.setReg8 r v).eaSeg m' = s.eaSeg m' := rfl
@[simp] theorem setReg8_segOr (s : State) (r : Reg8) (v : Byte) (d' : SReg) : (s.setReg8 r v).segOr d' = s.segOr d' := rfl
@[simp] theorem setReg8_ipNext (s : State) (r : Reg8) (v : Byte) (i' : Instr) : (s.setReg8 r v).ipNext i' = s.ipNext i' := rfl
@[simp] theorem setReg8_delta (s : State) (r : Reg8) (v : Byte) (n' : Word) : (s.setReg8 r v).delta n' = s.delta n' := rfl
@[simp] theorem setReg8_portOwner (s : State) (r : Reg8) (v : Byte) (p' : Word) : (s.setReg8 r v).portOwner p' = s.portOwner p' := rfl
@[simp] theorem setReg8_portRead8 (s : State) (r : Reg8) (v : Byte) (p' : Word) : (s.setReg8 r v).portRead8 p' = s.portRead8 p' := rfl
@[simp] theorem setReg8_highestPending (s : State) (r : Reg8) (v : Byte) : (s.setReg8 r v).highestPending = s.highestPending := rfl
@[simp] theorem setReg8_shiftCount (s : State) (r : Reg8) (v : Byte) (c' : Byte) : (s.setReg8 r v).shiftCount c' = s.shiftCount c' := rfl
@[simp] theorem setReg8_timer (s : State) (r : Reg8) (v : Byte) (j' : Nat) : (s.setReg8 r v).timer j' = s.timer j' := rfl
@[simp] theorem setReg8_channel (s : State) (r : Reg8) (v : Byte) (j' : Nat) : (s.setReg8 r v).channel j' = s.channel j' := rfl

@[simp] theorem setSReg_regs (s : State) (r : SReg) (v : Word) : (s.setSReg r v).regs = s.regs := by cases r <;> rfl
@[simp] theorem setSReg_unset (s : State) (r : SReg) (v : Word) : (s.setSReg r v).unset = s.unset := by cases r <;> rfl
@[simp] theorem setSReg_ip (s : State) (r : SReg) (v : Word) : (s.setSReg r v).ip = s.ip := by cases r <;> rfl
@[simp] theorem setSReg_flags (s : State) (r : SReg) (v : Word) : (s.setSReg r v).flags = s.flags := by cases r <;> rfl
@[simp] theorem setSReg_halted (s : State) (r : SReg) (v : Word) : (s.setSReg r v).halted = s.halted := by cases r <;> rfl
@[simp] theorem setSReg_shadow (s : State) (r : SReg) (v : Word) : (s.setSReg r v).shadow = s.shadow := by cases r <;> rfl
@[simp] theorem setSReg_diag (s : State) (r : SReg) (v : Word) : (s.setSReg r v).diag = s.diag := by cases r <;> rfl
@[simp] theorem setSReg_faults (s : State) (r : SReg) (v : Word) : (s.setSReg r v).faults = s.faults := by cases r <;> rfl
@[simp] theorem setSReg_ic (s : State) (r : SReg) (v : Word) : (s.setSReg r v).ic = s.ic := by cases r <;> rfl
@[simp] theorem setSReg_timers (s : State) (r : SReg) (v : Word) : (s.setSReg r v).timers = s.timers := by cases r <;> rfl
@[simp] theorem setSReg_ppu (s : State) (r : SReg) (v : Word) : (s.setSReg r v).ppu = s.ppu := by cases r <;> rfl
@[simp] theorem setSReg_apu (s : State) (r : SReg) (v : Word) : (s.setSReg r v).apu = s.apu := by cases r <;> rfl
@[simp] theorem setSReg_banks (s : State) (r : SReg) (v : Word) : (s.setSReg r v).banks = s.banks := by cases r <;> rfl
@[simp] theorem setSReg_ram (s : State) (r : SReg) (v : Word) : (s.setSReg r v).ram = s.ram := by cases r <;> rfl
@[simp] theorem setSReg_rom (s : State) (r : SReg) (v : Word) : (s.setSReg r v).rom = s.rom := by cases r <;> rfl
@[simp] theorem setSReg_save (s : State) (r : SReg) (v : Word) : (s.setSReg r v).save = s.save := by cases r <;> rfl
@[simp] theorem setSReg_rem (s : State) (r : SReg) (v : Word) : (s.setSReg r v).rem = s.rem := by cases r <;> rfl
@[simp] theorem setSReg_elapsed (s : State) (r : SReg) (v : Word) : (s.setSReg r v).elapsed = s.elapsed := by cases r <;> rfl
@[simp] theorem setSReg_mode (s : State) (r : SReg) (v : Word) : (s.setSReg r v).mode = s.mode := by cases r <;> rfl
@[simp] theorem setSReg_samples (s : State) (r : SReg) (v : Word) : (s.setSReg r v).samples = s.samples := by cases r <;> rfl
@[simp] theorem setSReg_raised (s : State) (r : SReg) (v : Word) : (s.setSReg r v).raised = s.raised := by cases r <;> rfl
@[simp] theorem setSReg_trace (s : State) (r : SReg) (v : Word) : (s.setSReg r v).trace = s.trace := by cases r <;> rfl
@[simp] theorem setSReg_input (s : State) (r : SReg) (v : Word) : (s.setSReg r v).input = s.input := by cases r <;> rfl
@[simp] theorem setSReg_cfg (s : State) (r : SReg) (v : Word) : (s.setSReg r v).cfg = s.cfg := by cases r <;> rfl
@[simp] theorem setSReg_ext (s : State) (r : SReg) (v : Word) : (s.setSReg r v).ext = s.ext := by cases r <;> rfl
@[simp] theorem setSReg_cur (s : State) (r : SReg) (v : Word) : (s.setSReg r v).cur = s.cur := by cases r <;> rfl
@[simp] theorem setSReg_reg16 (s : State) (r : SReg) (v : Word) (q' : Reg16) : (s.setSReg r v).reg16 q' = s.reg16 q' := by cases r <;> rfl
@[simp] theorem setSReg_reg8 (s : State) (r : SReg) (v : Word) (q' : Reg8) : (s.setSReg r v).reg8 q' = s.reg8 q' := by cases r <;> rfl
@[simp] theorem setSReg_unset8 (s : State) (r : SReg) (v : Word) (q' : Reg8) : (s.setSReg r v).unset8 q' = s.unset8 q' := by cases r <;> rfl
@[simp] theorem setSReg_unset16 (s : State) (r : SReg) (v : Word) (q' : Reg16) : (s.setSReg r v).unset16 q' = s.unset16 q' := by cases r <;> rfl
@[simp] theorem setSReg_flag (s : State) (r : SReg) (v : Word) (q' : Flag) : (s.setSReg r v).flag q' = s.flag q' := by cases r <;> rfl
@[simp] theorem setSReg_locate (s : State) (r : SReg) (v : Word) (a' : Phys) : (s.setSReg r v).locate a' = s.locate a' := by cases r <;> rfl
@[simp] theorem setSReg_readPlace (s : State) (r : SReg) (v : Word) (p' : Place) : (s.setSReg r v).readPlace p' = s.readPlace p' := by cases r <;> rfl
@[simp] theorem setSReg_busRead8 (s : State) (r : SReg) (v : Word) (a' : Phys) : (s.setSReg r v).busRead8 a' = s.busRead8 a' := by cases r <;> rfl
@[simp] theorem setSReg_mem8 (s : State) (r : SReg) (v : Word) (sg' off' : Word) : (s.setSReg r v).mem8 sg' off' = s.mem8 sg' off' := by cases r <;> rfl
@[simp] theorem setSReg_mem16 (s : State) (r : SReg) (v : Word) (sg' off' : Word) : (s.setSReg r v).mem16 sg' off' = s.mem16 sg' off' := by cases r <;> rfl
@[simp] theorem setSReg_unsetPlace (s : State) (r : SReg) (v : Word) (p' : Place) : (s.setSReg r v).unsetPlace p' = s.unsetPlace p' := by cases r <;> rfl
@[simp] theorem setSReg_unsetMem8 (s : State) (r : SReg) (v : Word) (sg' off' : Word) : (s.setSReg r v).unsetMem8 sg' off' = s.unsetMem8 sg' off' := by cases r <;> rfl
@[simp] theorem setSReg_unsetMem16 (s : State) (r : SReg) (v : Word) (sg' off' : Word) : (s.setSReg r v).unsetMem16 sg' off' = s.unsetMem16 sg' off' := by cases r <;> rfl
@[simp] theorem setSReg_eaOff (s : State) (r : SReg) (v : Word) (m' : Mem) : (s.setSReg r v).eaOff m' = s.eaOff m' := by cases r <;> rfl
@[simp] theorem setSReg_read8 (s : State) (r : SReg) (v : Word) (l' : Loc8) : (s.setSReg r v).read8 l' = s.read8 l' := by cases r <;> rfl
@[simp] theorem setSReg_read16 (s : State) (r : SReg) (v : Word) (l' : Loc16) : (s.setSReg r v).read16 l' = s.read16 l' := by cases r <;> rfl
@[simp] theorem setSReg_ipNext (s : State) (r : SReg) (v : Word) (i' : Instr) : (s.setSReg r v).ipNext i' = s.ipNext i' := by cases r <;> rfl
@[simp] theorem setSReg_delta (s : State) (r : SReg) (v : Word) (n' : Word) : (s.setSReg r v).delta n' = s.delta n' := by cases r <;> rfl
@[simp] theorem setSReg_portOwner (s : State) (r : SReg) (v : Word) (p' : Word) : (s.setSReg r v).portOwner p' = s.portOwner p' := by cases r <;> rfl
@[simp] theorem setSReg_portRead8 (s : State) (r : SReg) (v : Word) (p' : Word) : (s.setSReg r v).portRead8 p' = s.portRead8 p' := by cases r <;> rfl
@[simp] theorem setSReg_highestPending (s : State) (r : SReg) (v : Word) : (s.setSReg r v).highestPending = s.highestPending := by cases r <;> rfl
@[simp] theorem setSReg_shiftCount (s : State) (r : SReg) (v : Word) (c' : Byte) : (s.setSReg r v).shiftCount c' = s.shiftCount c' := by cases r <;> rfl
@[simp] theorem setSReg_timer (s : State) (r : SReg) (v : Word) (j' : Nat) : (s.setSReg r v).timer j' = s.timer j' := by cases r <;> rfl
@[simp] theorem setSReg_channel (s : State) (r : SReg) (v : Word) (j' : Nat) : (s.setSReg r v).channel j' = s.channel j' := by cases r <;> rfl

@[simp] theorem setFlags_regs (s : State) (fl : Word) : (s.setFlags fl).regs = s.regs := rfl
@[simp] theorem setFlags_unset (s : State) (fl : Word) : (s.setFlags fl).unset = s.unset := rfl
@[simp] theorem setFlags_segs (s : State) (fl : Word) : (s.setFlags fl).segs = s.segs := rfl
@[simp] theorem setFlags_ip (s : State) (fl : Word) : (s.setFlags fl).ip = s.ip := rfl
@[simp] theorem setFlags_flags (s : State) (fl : Word) : (s.setFlags fl).flags = fl := rfl
@[simp] theorem setFlags_halted (s : State) (fl : Word) : (s.setFlags fl).halted = s.halted := rfl
@[simp] theorem setFlags_shadow (s : State) (fl : Word) : (s.setFlags fl).shadow = s.shadow := rfl
@[simp] theorem setFlags_diag (s : State) (fl : Word) : (s.setFlags fl).diag = s.diag := rfl
@[simp] theorem setFlags_faults (s : State) (fl : Word) : (s.setFlags fl).faults = s.faults := rfl
@[simp] theorem setFlags_ic (s : State) (fl : Word) : (s.setFlags fl).ic = s.ic := rfl
@[simp] theorem setFlags_timers (s : State) (fl : Word) : (s.setFlags fl).timers = s.timers := rfl
@[simp] theorem setFlags_ppu (s : State) (fl : Word) : (s.setFlags fl).ppu = s.ppu := rfl
@[simp] theorem setFlags_apu (s : State) (fl : Word) : (s.setFlags fl).apu = s.apu := rfl
@[simp] theorem setFlags_banks (s : State) (fl : Word) : (s.setFlags fl).banks = s.banks := rfl
@[simp] theorem setFlags_ram (s : State) (fl : Word) : (s.setFlags fl).ram = s.ram := rfl
@[simp] theorem setFlags_rom (s : State) (fl : Word) : (s.setFlags fl).rom = s.rom := rfl
@[simp] theorem setFlags_save (s : State) (fl : Word) : (s.setFlags fl).save = s.save := rfl
@[simp] theorem setFlags_rem (s : State) (fl : Word) : (s.setFlags fl).rem = s.rem := rfl
@[simp] theorem setFlags_elapsed (s : State) (fl : Word) : (s.setFlags fl).elapsed = s.elapsed := rfl
@[simp] theorem setFlags_mode (s : State) (fl : Word) : (s.setFlags fl).mode = s.mode := rfl
@[simp] theorem setFlags_samples (s : State) (fl : Word) : (s.setFlags fl).samples = s.samples := rfl
@[simp] theorem setFlags_raised (s : State) (fl : Word) : (s.setFlags fl).raised = s.raised := rfl
@[simp] theorem setFlags_trace (s : State) (fl : Word) : (s.setFlags fl).trace = s.trace := rfl
@[simp] theorem setFlags_input (s : State) (fl : Word) : (s.setFlags fl).input = s.input := rfl
@[simp] theorem setFlags_cfg (s : State) (fl : Word) : (s.setFlags fl).cfg = s.cfg := rfl
@[simp] theorem setFlags_ext (s : State) (fl : Word) : (s.setFlags fl).ext = s.ext := rfl
@[simp] theorem setFlags_cur (s : State) (fl : Word) : (s.setFlags fl).cur = s.cur := rfl
@[simp] theorem setFlags_reg16 (s : State) (fl : Word) (q' : Reg16) : (s.setFlags fl).reg16 q' = s.reg16 q' := rfl
@[simp] theorem setFlags_reg8 (s : State) (fl : Word) (q' : Reg8) : (s.setFlags fl).reg8 q' = s.reg8 q' := rfl
@[simp] theorem setFlags_unset8 (s : State) (fl : Word) (q' : Reg8) : (s.setFlags fl).unset8 q' = s.unset8 q' := rfl
@[simp] theorem setFlags_unset16 (s : State) (fl : Word) (q' : Reg16) : (s.setFlags fl).unset16 q' = s.unset16 q' := rfl
@[simp] theorem setFlags_sreg (s : State) (fl : Word) (q' : SReg) : (s.setFlags fl).sreg q' = s.sreg q' := rfl
@[simp] theorem setFlags_locate (s : State) (fl : Word) (a' : Phys) : (s.setFlags fl).locate a' = s.locate a' := rfl
@[simp] theorem setFlags_readPlace (s : State) (fl : Word) (p' : Place) : (s.setFlags fl).readPlace p' = s.readPlace p' := rfl
@[simp] theorem setFlags_busRead8 (s : State) (fl : Word) (a' : Phys) : (s.setFlags fl).busRead8 a' = s.busRead8 a' := rfl
@[simp] theorem setFlags_mem8 (s : State) (fl : Word) (sg' off' : Word) : (s.setFlags fl).mem8 sg' off' = s.mem8 sg' off' := rfl
@[simp] theorem setFlags_mem16 (s : State) (fl : Word) (sg' off' : Word) : (s.setFlags fl).mem16 sg' off' = s.mem16 sg' off' := rfl
@[simp] theorem setFlags_unsetPlace (s : State) (fl : Word) (p' : Place) : (s.setFlags fl).unsetPlace p' = s.unsetPlace p' := rfl
@[simp] theorem setFlags_unsetMem8 (s : State) (fl : Word) (sg' off' : Word) : (s.setFlags fl).unsetMem8 sg' off' = s.unsetMem8 sg' off' := rfl
@[simp] theorem setFlags_unsetMem16 (s : State) (fl : Word) (sg' off' : Word) : (s.setFlags fl).unsetMem16 sg' off' = s.unsetMem16 sg' off' := rfl
@[simp] theorem setFlags_eaOff (s : State) (fl : Word) (m' : Mem) : (s.setFlags fl).eaOff m' = s.eaOff m' := rfl
@[simp] theorem setFlags_eaSeg (s : State) (fl : Word) (m' : Mem) : (s.setFlags fl).eaSeg m' = s.eaSeg m' := rfl
@[simp] theorem setFlags_segOr (s : State) (fl : Word) (d' : SReg) : (s.setFlags fl).segOr d' = s.segOr d' := rfl
@[simp] theorem setFlags_loc8 (s : State) (fl : Word) (e' : Rm8) : (s.setFlags fl).loc8 e' = s.loc8 e' := rfl
@[simp] theorem setFlags_loc16 (s : State) (fl : Word) (e' : Rm16) : (s.setFlags fl).loc16 e' = s.loc16 e' := rfl
@[simp] theorem setFlags_read8 (s : State) (fl : Word) (l' : Loc8) : (s.setFlags fl).read8 l' = s.read8 l' := rfl
@[simp] theorem setFlags_read16 (s : State) (fl : Word) (l' : Loc16) : (s.setFlags fl).read16 l' = s.read16 l' := rfl
@[simp] theorem setFlags_rm8 (s : State) (fl : Word) (e' : Rm8) : (s.setFlags fl).rm8 e' = s.rm8 e' := rfl
@[simp] theorem setFlags_rm16 (s : State) (fl : Word) (e' : Rm16) : (s.setFlags fl).rm16 e' = s.rm16 e' := rfl
@[simp] theorem setFlags_ipNext (s : State) (fl : Word) (i' : Instr) : (s.setFlags fl).ipNext i' = s.ipNext i' := rfl
@[simp] theorem setFlags_top (s : State) (fl : Word) : (s.setFlags fl).top = s.top := rfl
@[simp] theorem setFlags_portOwner (s : State) (fl : Word) (p' : Word) : (s.setFlags fl).portOwner p' = s.portOwner p' := rfl
@[simp] theorem setFlags_portRead8 (s : State) (fl : Word) (p' : Word) : (s.setFlags fl).portRead8 p' = s.portRead8 p' := rfl
@[simp] theorem setFlags_highestPending (s : State) (fl : Word) : (s.setFlags fl).highestPending = s.highestPending := rfl
@[simp] theorem setFlags_shiftCount (s : State) (fl : Word) (c' : Byte) : (s.setFlags fl).shiftCount c' = s.shiftCount c' := rfl
@[simp] theorem setFlags_timer (s : State) (fl : Word) (j' : Nat) : (s.setFlags fl).timer j' = s.timer j' := rfl
@[simp] theorem setFlags_channel (s : State) (fl : Word) (j' : Nat) : (s.setFlags fl).channel j' = s.channel j' := rfl

@[simp] theorem setFlag_regs (s : State) (f : Flag) (b : Bool) : (s.setFlag f b).regs = s.regs := rfl
@[simp] theorem setFlag_unset (s : State) (f : Flag) (b : Bool) : (s.setFlag f b).unset = s.unset := rfl
@[simp] theorem setFlag_segs (s : State) (f : Flag) (b : Bool) : (s.setFlag f b).segs = s.segs := rfl
@[simp] theorem setFlag_ip (s : State) (f : Flag) (b : Bool) : (s.setFlag f b).ip = s.ip := rfl
@[simp] theorem setFlag_flags (s : State) (f : Flag) (b : Bool) : (s.setFlag f b).flags = flagPut s.flags f b := rfl
@[simp] theorem setFlag_halted (s : State) (f : Flag) (b : Bool) : (s.setFlag f b).halted = s.halted := rfl
@[simp] theorem setFlag_shadow (s : State) (f : Flag) (b : Bool) : (s.setFlag f b).shadow = s.shadow := rfl
@[simp] theorem setFlag_diag (s : State) (f : Flag) (b : Bool) : (s.setFlag f b).diag = s.diag := rfl
@[simp] theorem setFlag_faults (s : State) (f : Flag) (b : Bool) : (s.setFlag f b).faults = s.faults := rfl
@[simp] theorem setFlag_ic (s : State) (f : Flag) (b : Bool) : (s.setFlag f b).ic = s.ic := rfl
@[simp] theorem setFlag_timers (s : State) (f : Flag) (b : Bool) : (s.setFlag f b).timers = s.timers := rfl
@[simp] theorem setFlag_ppu (s : State) (f : Flag) (b : Bool) : (s.setFlag f b).ppu = s.ppu := rfl
@[simp] theorem setFlag_apu (s : State) (f : Flag) (b : Bool) : (s.setFlag f b).apu = s.apu := rfl
@[simp] theorem setFlag_banks (s : State) (f : Flag) (b : Bool) : (s.setFlag f b).banks = s.banks := rfl
@[simp] theorem setFlag_ram (s : State) (f : Flag) (b : Bool) : (s.setFlag f b).ram = s.ram := rfl
@[simp] theorem setFlag_rom (s : State) (f : Flag) (b : Bool) : (s.setFlag f b).rom = s.rom := rfl
@[simp] theorem setFlag_save (s : State) (f : Flag) (b : Bool) : (s.setFlag f b).save = s.save := rfl
@[simp] theorem setFlag_rem (s : State) (f : Flag) (b : Bool) : (s.setFlag f b).rem = s.rem := rfl
@[simp] theorem setFlag_elapsed (s : State) (f : Flag) (b : Bool) : (s.setFlag f b).elapsed = s.elapsed := rfl
@[simp] theorem setFlag_mode (s : State) (f : Flag) (b : Bool) : (s.setFlag f b).mode = s.mode := rfl
@[simp] theorem setFlag_samples (s : State) (f : Flag) (b : Bool) : (s.setFlag f b).samples = s.samples := rfl
@[simp] theorem setFlag_raised (s : State) (f : Flag) (b : Bool) : (s.setFlag f b).raised = s.raised := rfl
@[simp] theorem setFlag_trace (s : State) (f : Flag) (b : Bool) : (s.setFlag f b).trace = s.trace := rfl
@[simp] theorem setFlag_input (s : State) (f : Flag) (b : Bool) : (s.setFlag f b).input = s.input := rfl
@[simp] theorem setFlag_cfg (s : State) (f : Flag) (b : Bool) : (s.setFlag f b).cfg = s.cfg := rfl
@[simp] theorem setFlag_ext (s : State) (f : Flag) (b : Bool) : (s.setFlag f b).ext = s.ext := rfl
@[simp] theorem setFlag_cur (s : State) (f : Flag) (b : Bool) : (s.setFlag f b).cur = s.cur := rfl
@[simp] theorem setFlag_reg16 (s : State) (f : Flag) (b : Bool) (q' : Reg16) : (s.setFlag f b).reg16 q' = s.reg16 q' := rfl
@[simp] theorem setFlag_reg8 (s : State) (f : Flag) (b : Bool) (q' : Reg8) : (s.setFlag f b).reg8 q' = s.reg8 q' := rfl
@[simp] theorem setFlag_unset8 (s : State) (f : Flag) (b : Bool) (q' : Reg8) : (s.setFlag f b).unset8 q' = s.unset8 q' := rfl
@[simp] theorem setFlag_unset16 (s : State) (f : Flag) (b : Bool) (q' : Reg16) : (s.setFlag f b).unset16 q' = s.unset16 q' := rfl
@[simp] theorem setFlag_sreg (s : State) (f : Flag) (b : Bool) (q' : SReg) : (s.setFlag f b).sreg q' = s.sreg q' := rfl
@[simp] theorem setFlag_locate (s : State) (f : Flag) (b : Bool) (a' : Phys) : (s.setFlag f b).locate a' = s.locate a' := rfl
@[simp] theorem setFlag_readPlace (s : State) (f : Flag) (b : Bool) (p' : Place) : (s.setFlag f b).readPlace p' = s.readPlace p' := rfl
@[simp] theorem setFlag_busRead8 (s : State) (f : Flag) (b : Bool) (a' : Phys) : (s.setFlag f b).busRead8 a' = s.busRead8 a' := rfl
@[simp] theorem setFlag_mem8 (s : State) (f : Flag) (b : Bool) (sg' off' : Word) : (s.setFlag f b).mem8 sg' off' = s.mem8 sg' off' := rfl
@[simp] theorem setFlag_mem16 (s : State) (f : Flag) (b : Bool) (sg' off' : Word) : (s.setFlag f b).mem16 sg' off' = s.mem16 sg' off' := rfl
@[simp] theorem setFlag_unsetPlace (s : State) (f : Flag) (b : Bool) (p' : Place) : (s.setFlag f b).unsetPlace p' = s.unsetPlace p' := rfl
@[simp] theorem setFlag_unsetMem8 (s : State) (f : Flag) (b : Bool) (sg' off' : Word) : (s.setFlag f b).unsetMem8 sg' off' = s.unsetMem8 sg' off' := rfl
@[simp] theorem setFlag_unsetMem16 (s : State) (f : Flag) (b : Bool) (sg' off' : Word) : (s.setFlag f b).unsetMem16 sg' off' = s.unsetMem16 sg' off' := rfl
@[simp] theorem setFlag_eaOff (s : State) (f : Flag) (b : Bool) (m' : Mem) : (s.setFlag f b).eaOff m' = s.eaOff m' := rfl
@[simp] theorem setFlag_eaSeg (s : State) (f : Flag) (b : Bool) (m' : Mem) : (s.setFlag f b).eaSeg m' = s.eaSeg m' := rfl
@[simp] theorem setFlag_segOr (s : State) (f : Flag) (b : Bool) (d' : SReg) : (s.setFlag f b).segOr d' = s.segOr d' := rfl
@[simp] theorem setFlag_loc8 (s : State) (f : Flag) (b : Bool) (e' : Rm8) : (s.setFlag f b).loc8 e' = s.loc8 e' := rfl
@[simp] theorem setFlag_loc16 (s : State) (f : Flag) (b : Bool) (e' : Rm16) : (s.setFlag f b).loc16 e' = s.loc16 e' := rfl
@[simp] theorem setFlag_read8 (s : State) (f : Flag) (b : Bool) (l' : Loc8) : (s.setFlag f b).read8 l' = s.read8 l' := rfl
@[simp] theorem setFlag_read16 (s : State) (f : Flag) (b : Bool) (l' : Loc16) : (s.setFlag f b).read16 l' = s.read16 l' := rfl
@[simp] theorem setFlag_rm8 (s : State) (f : Flag) (b : Bool) (e' : Rm8) : (s.setFlag f b).rm8 e' = s.rm8 e' := rfl
@[simp] theorem setFlag_rm16 (s : State) (f : Flag) (b : Bool) (e' : Rm16) : (s.setFlag f b).rm16 e' = s.rm16 e' := rfl
@[simp] theorem setFlag_ipNext (s : State) (f : Flag) (b : Bool) (i' : Instr) : (s.setFlag f b).ipNext i' = s.ipNext i' := rfl
@[simp] theorem setFlag_top (s : State) (f : Flag) (b : Bool) : (s.setFlag f b).top = s.top := rfl
@[simp] theorem setFlag_portOwner (s : State) (f : Flag) (b : Bool) (p' : Word) : (s.setFlag f b).portOwner p' = s.portOwner p' := rfl
@[simp] theorem setFlag_portRead8 (s : State) (f : Flag) (b : Bool) (p' : Word) : (s.setFlag f b).portRead8 p' = s.portRead8 p' := rfl
@[simp] theorem setFlag_highestPending (s : State) (f : Flag) (b : Bool) : (s.setFlag f b).highestPending = s.highestPending := rfl
@[simp] theorem setFlag_shiftCount (s : State) (f : Flag) (b : Bool) (c' : Byte) : (s.setFlag f b).shiftCount c' = s.shiftCount c' := rfl
@[simp] theorem setFlag_timer (s : State) (f : Flag) (b : Bool) (j' : Nat) : (s.setFlag f b).timer j' = s.timer j' := rfl
@[simp] theorem setFlag_channel (s : State) (f : Flag) (b : Bool) (j' : Nat) : (s.setFlag f b).channel j' = s.channel j' := rfl

@[simp] theorem writeFlags_regs (s : State) (v : Word) : (s.writeFlags v).regs = s.regs := rfl
@[simp] theorem writeFlags_unset (s : State) (v : Word) : (s.writeFlags v).unset = s.unset := rfl
@[simp] theorem writeFlags_segs (s : State) (v : Word) : (s.writeFlags v).segs = s.segs := rfl
@[simp] theorem writeFlags_ip (s : State) (v : Word) : (s.writeFlags v).ip = s.ip := rfl
@[simp] theorem writeFlags_flags (s : State) (v : Word) : (s.writeFlags v).flags = writeFlagsWord s.cfg v := rfl
@[simp] theorem writeFlags_halted (s : State) (v : Word) : (s.writeFlags v).halted = s.halted := rfl
@[simp] theorem writeFlags_shadow (s : State) (v : Word) : (s.writeFlags v).shadow = s.shadow := rfl
@[simp] theorem writeFlags_diag (s : State) (v : Word) : (s.writeFlags v).diag = s.diag := rfl
@[simp] theorem writeFlags_faults (s : State) (v : Word) : (s.writeFlags v).faults = s.faults := rfl
@[simp] theorem writeFlags_ic (s : State) (v : Word) : (s.writeFlags v).ic = s.ic := rfl
@[simp] theorem writeFlags_timers (s : State) (v : Word) : (s.writeFlags v).timers = s.timers := rfl
@[simp] theorem writeFlags_ppu (s : State) (v : Word) : (s.writeFlags v).ppu = s.ppu := rfl
@[simp] theorem writeFlags_apu (s : State) (v : Word) : (s.writeFlags v).apu = s.apu := rfl
@[simp] theorem writeFlags_banks (s : State) (v : Word) : (s.writeFlags v).banks = s.banks := rfl
@[simp] theorem writeFlags_ram (s : State) (v : Word) : (s.writeFlags v).ram = s.ram := rfl
@[simp] theorem writeFlags_rom (s : State) (v : Word) : (s.writeFlags v).rom = s.rom := rfl
@[simp] theorem writeFlags_save (s : State) (v : Word) : (s.writeFlags v).save = s.save := rfl
@[simp] theorem writeFlags_rem (s : State) (v : Word) : (s.writeFlags v).rem = s.rem := rfl
@[simp] theorem writeFlags_elapsed (s : State) (v : Word) : (s.writeFlags v).elapsed = s.elapsed := rfl
@[simp] theorem writeFlags_mode (s : State) (v : Word) : (s.writeFlags v).mode = s.mode := rfl
@[simp] theorem writeFlags_samples (s : State) (v : Word) : (s.writeFlags v).samples = s.samples := rfl
@[simp] theorem writeFlags_raised (s : State) (v : Word) : (s.writeFlags v).raised = s.raised := rfl
@[simp] theorem writeFlags_trace (s : State) (v : Word) : (s.writeFlags v).trace = s.trace := rfl
@[simp] theorem writeFlags_input (s : State) (v : Word) : (s.writeFlags v).input = s.input := rfl
@[simp] theorem writeFlags_cfg (s : State) (v : Word) : (s.writeFlags v).cfg = s.cfg := rfl
@[simp] theorem writeFlags_ext (s : State) (v : Word) : (s.writeFlags v).ext = s.ext := rfl
@[simp] theorem writeFlags_cur (s : State) (v : Word) : (s.writeFlags v).cur = s.cur := rfl
@[simp] theorem writeFlags_reg16 (s : State) (v : Word) (q' : Reg16) : (s.writeFlags v).reg16 q' = s.reg16 q' := rfl
@[simp] theorem writeFlags_reg8 (s : State) (v : Word) (q' : Reg8) : (s.writeFlags v).reg8 q' = s.reg8 q' := rfl
@[simp] theorem writeFlags_unset8 (s : State) (v : Word) (q' : Reg8) : (s.writeFlags v).unset8 q' = s.unset8 q' := rfl
@[simp] theorem writeFlags_unset16 (s : State) (v : Word) (q' : Reg16) : (s.writeFlags v).unset16 q' = s.unset16 q' := rfl
@[simp] theorem writeFlags_sreg (s : State) (v : Word) (q' : SReg) : (s.writeFlags v).sreg q' = s.sreg q' := rfl
@[simp] theorem writeFlags_locate (s : State) (v : Word) (a' : Phys) : (s.writeFlags v).locate a' = s.locate a' := rfl
@[simp] theorem writeFlags_readPlace (s : State) (v : Word) (p' : Place) : (s.writeFlags v).readPlace p' = s.readPlace p' := rfl
@[simp] theorem writeFlags_busRead8 (s : State) (v : Word) (a' : Phys) : (s.writeFlags v).busRead8 a' = s.busRead8 a' := rfl
@[simp] theorem writeFlags_mem8 (s : State) (v : Word) (sg' off' : Word) : (s.writeFlags v).mem8 sg' off' = s.mem8 sg' off' := rfl
@[simp] theorem writeFlags_mem16 (s : State) (v : Word) (sg' off' : Word) : (s.writeFlags v).mem16 sg' off' = s.mem16 sg' off' := rfl
@[simp] theorem writeFlags_unsetPlace (s : State) (v : Word) (p' : Place) : (s.writeFlags v).unsetPlace p' = s.unsetPlace p' := rfl
@[simp] theorem writeFlags_unsetMem8 (s : State) (v : Word) (sg' off' : Word) : (s.writeFlags v).unsetMem8 sg' off' = s.unsetMem8 sg' off' := rfl
@[simp] theorem writeFlags_unsetMem16 (s : State) (v : Word) (sg' off' : Word) : (s.writeFlags v).unsetMem16 sg' off' = s.unsetMem16 sg' off' := rfl
@[simp] theorem writeFlags_eaOff (s : State) (v : Word) (m' : Mem) : (s.writeFlags v).eaOff m' = s.eaOff m' := rfl
@[simp] theorem writeFlags_eaSeg (s : State) (v : Word) (m' : Mem) : (s.writeFlags v).eaSeg m' = s.eaSeg m' := rfl
@[simp] theorem writeFlags_segOr (s : State) (v : Word) (d' : SReg) : (s.writeFlags v).segOr d' = s.segOr d' := rfl
@[simp] theorem writeFlags_loc8 (s : State) (v : Word) (e' : Rm8) : (s.writeFlags v).loc8 e' = s.loc8 e' := rfl
@[simp] theorem writeFlags_loc16 (s : State) (v : Word) (e' : Rm16) : (s.writeFlags v).loc16 e' = s.loc16 e' := rfl
@[simp] theorem writeFlags_read8 (s : State) (v : Word) (l' : Loc8) : (s.writeFlags v).read8 l' = s.read8 l' := rfl
@[simp] theorem writeFlags_read16 (s : State) (v : Word) (l' : Loc16) : (s.writeFlags v).read16 l' = s.read16 l' := rfl
@[simp] theorem writeFlags_rm8 (s : State) (v : Word) (e' : Rm8) : (s.writeFlags v).rm8 e' = s.rm8 e' := rfl
@[simp] theorem writeFlags_rm16 (s : State) (v : Word) (e' : Rm16) : (s.writeFlags v).rm16 e' = s.rm16 e' := rfl
@[simp] theorem writeFlags_ipNext (s : State) (v : Word) (i' : Instr) : (s.writeFlags v).ipNext i' = s.ipNext i' := rfl
@[simp] theorem writeFlags_top (s : State) (v : Word) : (s.writeFlags v).top = s.top := rfl
@[simp] theorem writeFlags_portOwner (s : State) (v : Word) (p' : Word) : (s.writeFlags v).portOwner p' = s.portOwner p' := rfl
@[simp] theorem writeFlags_portRead8 (s : State) (v : Word) (p' : Word) : (s.writeFlags v).portRead8 p' = s.portRead8 p' := rfl
@[simp] theorem writeFlags_highestPending (s : State) (v : Word) : (s.writeFlags v).highestPending = s.highestPending := rfl
@[simp] theorem writeFlags_shiftCount (s : State) (v : Word) (c' : Byte) : (s.writeFlags v).shiftCount c' = s.shiftCount c' := rfl
@[simp] theorem writeFlags_timer (s : State) (v : Word) (j' : Nat) : (s.writeFlags v).timer j' = s.timer j' := rfl
@[simp] theorem writeFlags_channel (s : State) (v : Word) (j' : Nat) : (s.writeFlags v).channel j' = s.channel j' := rfl

@[simp] theorem setIp_regs (s : State) (v : Word) : (s.setIp v).regs = s.regs := rfl
@[simp] theorem setIp_unset (s : State) (v : Word) : (s.setIp v).unset = s.unset := rfl
@[simp] theorem setIp_segs (s : State) (v : Word) : (s.setIp v).segs = s.segs := rfl
@[simp] theorem setIp_ip (s : State) (v : Word) : (s.setIp v).ip = v := rfl
@[simp] theorem setIp_flags (s : State) (v : Word) : (s.setIp v).flags = s.flags := rfl
@[simp] theorem setIp_halted (s : State) (v : Word) : (s.setIp v).halted = s.halted := rfl
@[simp] theorem setIp_shadow (s : State) (v : Word) : (s.setIp v).shadow = s.shadow := rfl
@[simp] theorem setIp_diag (s : State) (v : Word) : (s.setIp v).diag = s.diag := rfl
@[simp] theorem setIp_faults (s : State) (v : Word) : (s.setIp v).faults = s.faults := rfl
@[simp] theorem setIp_ic (s : State) (v : Word) : (s.setIp v).ic = s.ic := rfl
@[simp] theorem setIp_timers (s : State) (v : Word) : (s.setIp v).timers = s.timers := rfl
@[simp] theorem setIp_ppu (s : State) (v : Word) : (s.setIp v).ppu = s.ppu := rfl
@[simp] theorem setIp_apu (s : State) (v : Word) : (s.setIp v).apu = s.apu := rfl
@[simp] theorem setIp_banks (s : State) (v : Word) : (s.setIp v).banks = s.banks := rfl
@[simp] theorem setIp_ram (s : State) (v : Word) : (s.setIp v).ram = s.ram := rfl
@[simp] theorem setIp_rom (s : State) (v : Word) : (s.setIp v).rom = s.rom := rfl
@[simp] theorem setIp_save (s : State) (v : Word) : (s.setIp v).save = s.save := rfl
@[simp] theorem setIp_rem (s : State) (v : Word) : (s.setIp v).rem = s.rem := rfl
@[simp] theorem setIp_elapsed (s : State) (v : Word) : (s.setIp v).elapsed = s.elapsed := rfl
@[simp] theorem setIp_mode (s : State) (v : Word) : (s.setIp v).mode = s.mode := rfl
@[simp] theorem setIp_samples (s : State) (v : Word) : (s.setIp v).samples = s.samples := rfl
@[simp] theorem setIp_raised (s : State) (v : Word) : (s.setIp v).raised = s.raised := rfl
@[simp] theorem setIp_trace (s : State) (v : Word) : (s.setIp v).trace = s.trace := rfl
@[simp] theorem setIp_input (s : State) (v : Word) : (s.setIp v).input = s.input := rfl
@[simp] theorem setIp_cfg (s : State) (v : Word) : (s.setIp v).cfg = s.cfg := rfl
@[simp] theorem setIp_ext (s : State) (v : Word) : (s.setIp v).ext = s.ext := rfl
@[simp] theorem setIp_cur (s : State) (v : Word) : (s.setIp v).cur = s.cur := rfl
@[simp] theorem setIp_reg16 (s : State) (v : Word) (q' : Reg16) : (s.setIp v).reg16 q' = s.reg16 q' := rfl
@[simp] theorem setIp_reg8 (s : State) (v : Word) (q' : Reg8) : (s.setIp v).reg8 q' = s.reg8 q' := rfl
@[simp] theorem setIp_unset8 (s : State) (v : Word) (q' : Reg8) : (s.setIp v).unset8 q' = s.unset8 q' := rfl
@[simp] theorem setIp_unset16 (s : State) (v : Word) (q' : Reg16) : (s.setIp v).unset16 q' = s.unset16 q' := rfl
@[simp] theorem setIp_sreg (s : State) (v : Word) (q' : SReg) : (s.setIp v).sreg q' = s.sreg q' := rfl
@[simp] theorem setIp_flag (s : State) (v : Word) (q' : Flag) : (s.setIp v).flag q' = s.flag q' := rfl
@[simp] theorem setIp_locate (s : State) (v : Word) (a' : Phys) : (s.setIp v).locate a' = s.locate a' := rfl
@[simp] theorem setIp_readPlace (s : State) (v : Word) (p' : Place) : (s.setIp v).readPlace p' = s.readPlace p' := rfl
@[simp] theorem setIp_busRead8 (s : State) (v : Word) (a' : Phys) : (s.setIp v).busRead8 a' = s.busRead8 a' := rfl
@[simp] theorem setIp_mem8 (s : State) (v : Word) (sg' off' : Word) : (s.setIp v).mem8 sg' off' = s.mem8 sg' off' := rfl
@[simp] theorem setIp_mem16 (s : State) (v : Word) (sg' off' : Word) : (s.setIp v).mem16 sg' off' = s.mem16 sg' off' := rfl
@[simp] theorem setIp_unsetPlace (s : State) (v : Word) (p' : Place) : (s.setIp v).unsetPlace p' = s.unsetPlace p' := rfl
@[simp] theorem setIp_unsetMem8 (s : State) (v : Word) (sg' off' : Word) : (s.setIp v).unsetMem8 sg' off' = s.unsetMem8 sg' off' := rfl
@[simp] theorem setIp_unsetMem16 (s : State) (v : Word) (sg' off' : Word) : (s.setIp v).unsetMem16 sg' off' = s.unsetMem16 sg' off' := rfl
@[simp] theorem setIp_eaOff (s : State) (v : Word) (m' : Mem) : (s.setIp v).eaOff m' = s.eaOff m' := rfl
@[simp] theorem setIp_eaSeg (s : State) (v : Word) (m' : Mem) : (s.setIp v).eaSeg m' = s.eaSeg m' := rfl
@[simp] theorem setIp_segOr (s : State) (v : Word) (d' : SReg) : (s.setIp v).segOr d' = s.segOr d' := rfl
@[simp] theorem setIp_loc8 (s : State) (v : Word) (e' : Rm8) : (s.setIp v).loc8 e' = s.loc8 e' := rfl
@[simp] theorem setIp_loc16 (s : State) (v : Word) (e' : Rm16) : (s.setIp v).loc16 e' = s.loc16 e' := rfl
@[simp] theorem setIp_read8 (s : State) (v : Word) (l' : Loc8) : (s.setIp v).read8 l' = s.read8 l' := rfl
@[simp] theorem setIp_read16 (s : State) (v : Word) (l' : Loc16) : (s.setIp v).read16 l' = s.read16 l' := rfl
@[simp] theorem setIp_rm8 (s : State) (v : Word) (e' : Rm8) : (s.setIp v).rm8 e' = s.rm8 e' := rfl
@[simp] theorem setIp_rm16 (s : State) (v : Word) (e' : Rm16) : (s.setIp v).rm16 e' = s.rm16 e' := rfl
@[simp] theorem setIp_delta (s : State) (v : Word) (n' : Word) : (s.setIp v).delta n' = s.delta n' := rfl
@[simp] theorem setIp_top (s : State) (v : Word) : (s.setIp v).top = s.top := rfl
@[simp] theorem setIp_portOwner (s : State) (v : Word) (p' : Word) : (s.setIp v).portOwner p' = s.portOwner p' := rfl
@[simp] theorem setIp_portRead8 (s : State) (v : Word) (p' : Word) : (s.setIp v).portRead8 p' = s.portRead8 p' := rfl
@[simp] theorem setIp_highestPending (s : State) (v : Word) : (s.setIp v).highestPending = s.highestPending := rfl
@[simp] theorem setIp_shiftCount (s : State) (v : Word) (c' : Byte) : (s.setIp v).shiftCount c' = s.shiftCount c' := rfl
@[simp] theorem setIp_timer (s : State) (v : Word) (j' : Nat) : (s.setIp v).timer j' = s.timer j' := rfl
@[simp] theorem setIp_channel (s : State) (v : Word) (j' : Nat) : (s.setIp v).channel j' = s.channel j' := rfl

@[simp] theorem advance_regs (s : State) (j : Instr) : (s.advance j).regs = s.regs := rfl
@[simp] theorem advance_unset (s : State) (j : Instr) : (s.advance j).unset = s.unset := rfl
@[simp] theorem advance_segs (s : State) (j : Instr) : (s.advance j).segs = s.segs := rfl
@[simp] theorem advance_ip (s : State) (j : Instr) : (s.advance j).ip = s.ipNext j := rfl
@[simp] theorem advance_flags (s : State) (j : Instr) : (s.advance j).flags = s.flags := rfl
@[simp] theorem advance_halted (s : State) (j : Instr) : (s.advance j).halted = s.halted := rfl
@[simp] theorem advance_shadow (s : State) (j : Instr) : (s.advance j).shadow = s.shadow := rfl
@[simp] theorem advance_diag (s : State) (j : Instr) : (s.advance j).diag = s.diag := rfl
@[simp] theorem advance_faults (s : State) (j : Instr) : (s.advance j).faults = s.faults := rfl
@[simp] theorem advance_ic (s : State) (j : Instr) : (s.advance j).ic = s.ic := rfl
@[simp] theorem advance_timers (s : State) (j : Instr) : (s.advance j).timers = s.timers := rfl
@[simp] theorem advance_ppu (s : State) (j : Instr) : (s.advance j).ppu = s.ppu := rfl
@[simp] theorem advance_apu (s : State) (j : Instr) : (s.advance j).apu = s.apu := rfl
@[simp] theorem advance_banks (s : State) (j : Instr) : (s.advance j).banks = s.banks := rfl
@[simp] theorem advance_ram (s : State) (j : Instr) : (s.advance j).ram = s.ram := rfl
@[simp] theorem advance_rom (s : State) (j : Instr) : (s.advance j).rom = s.rom := rfl
@[simp] theorem advance_save (s : State) (j : Instr) : (s.advance j).save = s.save := rfl
@[simp] theorem advance_rem (s : State) (j : Instr) : (s.advance j).rem = s.rem := rfl
@[simp] theorem advance_elapsed (s : State) (j : Instr) : (s.advance j).elapsed = s.elapsed := rfl
@[simp] theorem advance_mode (s : State) (j : Instr) : (s.advance j).mode = s.mode := rfl
@[simp] theorem advance_samples (s : State) (j : Instr) : (s.advance j).samples = s.samples := rfl
@[simp] theorem advance_raised (s : State) (j : Instr) : (s.advance j).raised = s.raised := rfl
@[simp] theorem advance_trace (s : State) (j : Instr) : (s.advance j).trace = s.trace := rfl
@[simp] theorem advance_input (s : State) (j : Instr) : (s.advance j).input = s.input := rfl
@[simp] theorem advance_cfg (s : State) (j : Instr) : (s.advance j).cfg = s.cfg := rfl
@[simp] theorem advance_ext (s : State) (j : Instr) : (s.advance j).ext = s.ext := rfl
@[simp] theorem advance_cur (s : State) (j : Instr) : (s.advance j).cur = s.cur := rfl
@[simp] theorem advance_reg16 (s : State) (j : Instr) (q' : Reg16) : (s.advance j).reg16 q' = s.reg16 q' := rfl
@[simp] theorem advance_reg8 (s : State) (j : Instr) (q' : Reg8) : (s.advance j).reg8 q' = s.reg8 q' := rfl
@[simp] theorem advance_unset8 (s : State) (j : Instr) (q' : Reg8) : (s.advance j).unset8 q' = s.unset8 q' := rfl
@[simp] theorem advance_unset16 (s : State) (j : Instr) (q' : Reg16) : (s.advance j).unset16 q' = s.unset16 q' := rfl
@[simp] theorem advance_sreg (s : State) (j : Instr) (q' : SReg) : (s.advance j).sreg q' = s.sreg q' := rfl
@[simp] theorem advance_flag (s : State) (j : Instr) (q' : Flag) : (s.advance j).flag q' = s.flag q' := rfl
@[simp] theorem advance_locate (s : State) (j : Instr) (a' : Phys) : (s.advance j).locate a' = s.locate a' := rfl
@[simp] theorem advance_readPlace (s : State) (j : Instr) (p' : Place) : (s.advance j).readPlace p' = s.readPlace p' := rfl
@[simp] theorem advance_busRead8 (s : State) (j : Instr) (a' : Phys) : (s.advance j).busRead8 a' = s.busRead8 a' := rfl
@[simp] theorem advance_mem8 (s : State) (j : Instr) (sg' off' : Word) : (s.advance j).mem8 sg' off' = s.mem8 sg' off' := rfl
@[simp] theorem advance_mem16 (s : State) (j : Instr) (sg' off' : Word) : (s.advance j).mem16 sg' off' = s.mem16 sg' off' := rfl
@[simp] theorem advance_unsetPlace (s : State) (j : Instr) (p' : Place) : (s.advance j).unsetPlace p' = s.unsetPlace p' := rfl
@[simp] theorem advance_unsetMem8 (s : State) (j : Instr) (sg' off' : Word) : (s.advance j).unsetMem8 sg' off' = s.unsetMem8 sg' off' := rfl
@[simp] theorem advance_unsetMem16 (s : State) (j : Instr) (sg' off' : Word) : (s.advance j).unsetMem16 sg' off' = s.unsetMem16 sg' off' := rfl
@[simp] theorem advance_eaOff (s : State) (j : Instr) (m' : Mem) : (s.advance j).eaOff m' = s.eaOff m' := rfl
@[simp] theorem advance_eaSeg (s : State) (j : Instr) (m' : Mem) : (s.advance j).eaSeg m' = s.eaSeg m' := rfl
@[simp] theorem advance_segOr (s : State) (j : Instr) (d' : SReg) : (s.advance j).segOr d' = s.segOr d' := rfl
@[simp] theorem advance_loc8 (s : State) (j : Instr) (e' : Rm8) : (s.advance j).loc8 e' = s.loc8 e' := rfl
@[simp] theorem advance_loc16 (s : State) (j : Instr) (e' : Rm16) : (s.advance j).loc16 e' = s.loc16 e' := rfl
@[simp] theorem advance_read8 (s : State) (j : Instr) (l' : Loc8) : (s.advance j).read8 l' = s.read8 l' := rfl
@[simp] theorem advance_read16 (s : State) (j : Instr) (l' : Loc16) : (s.advance j).read16 l' = s.read16 l' := rfl
@[simp] theorem advance_rm8 (s : State) (j : Instr) (e' : Rm8) : (s.advance j).rm8 e' = s.rm8 e' := rfl
@[simp] theorem advance_rm16 (s : State) (j : Instr) (e' : Rm16) : (s.advance j).rm16 e' = s.rm16 e' := rfl
@[simp] theorem advance_delta (s : State) (j : Instr) (n' : Word) : (s.advance j).delta n' = s.delta n' := rfl
@[simp] theorem advance_top (s : State) (j : Instr) : (s.advance j).top = s.top := rfl
@[simp] theorem advance_portOwner (s : State) (j : Instr) (p' : Word) : (s.advance j).portOwner p' = s.portOwner p' := rfl
@[simp] theorem advance_portRead8 (s : State) (j : Instr) (p' : Word) : (s.advance j).portRead8 p' = s.portRead8 p' := rfl
@[simp] theorem advance_highestPending (s : State) (j : Instr) : (s.advance j).highestPending = s.highestPending := rfl
@[simp] theorem advance_shiftCount (s : State) (j : Instr) (c' : Byte) : (s.advance j).shiftCount c' = s.shiftCount c' := rfl
@[simp] theorem advance_timer (s : State) (j : Instr) (j' : Nat) : (s.advance j).timer j' = s.timer j' := rfl
@[simp] theorem advance_channel (s : State) (j : Instr) (j' : Nat) : (s.advance j).channel j' = s.channel j' := rfl

@[simp] theorem setCsIp_regs (s : State) (sel off : Word) : (s.setCsIp sel off).regs = s.regs := rfl
@[simp] theorem setCsIp_unset (s : State) (sel off : Word) : (s.setCsIp sel off).unset = s.unset := rfl
@[simp] theorem setCsIp_segs (s : State) (sel off : Word) : (s.setCsIp sel off).segs = { s.segs with cs := sel } := rfl
@[simp] theorem setCsIp_ip (s : State) (sel off : Word) : (s.setCsIp sel off).ip = off := rfl
@[simp] theorem setCsIp_flags (s : State) (sel off : Word) : (s.setCsIp sel off).flags = s.flags := rfl
@[simp] theorem setCsIp_halted (s : State) (sel off : Word) : (s.setCsIp sel off).halted = s.halted := rfl
@[simp] theorem setCsIp_shadow (s : State) (sel off : Word) : (s.setCsIp sel off).shadow = s.shadow := rfl
@[simp] theorem setCsIp_diag (s : State) (sel off : Word) : (s.setCsIp sel off).diag = s.diag := rfl
@[simp] theorem setCsIp_faults (s : State) (sel off : Word) : (s.setCsIp sel off).faults = s.faults := rfl
@[simp] theorem setCsIp_ic (s : State) (sel off : Word) : (s.setCsIp sel off).ic = s.ic := rfl
@[simp] theorem setCsIp_timers (s : State) (sel off : Word) : (s.setCsIp sel off).timers = s.timers := rfl
@[simp] theorem setCsIp_ppu (s : State) (sel off : Word) : (s.setCsIp sel off).ppu = s.ppu := rfl
@[simp] theorem setCsIp_apu (s : State) (sel off : Word) : (s.setCsIp sel off).apu = s.apu := rfl
@[simp] theorem setCsIp_banks (s : State) (sel off : Word) : (s.setCsIp sel off).banks = s.banks := rfl
@[simp] theorem setCsIp_ram (s : State) (sel off : Word) : (s.setCsIp sel off).ram = s.ram := rfl
@[simp] theorem setCsIp_rom (s : State) (sel off : Word) : (s.setCsIp sel off).rom = s.rom := rfl
@[simp] theorem setCsIp_save (s : State) (sel off : Word) : (s.setCsIp sel off).save = s.save := rfl
@[simp] theorem setCsIp_rem (s : State) (sel off : Word) : (s.setCsIp sel off).rem = s.rem := rfl
@[simp] theorem setCsIp_elapsed (s : State) (sel off : Word) : (s.setCsIp sel off).elapsed = s.elapsed := rfl
@[simp] theorem setCsIp_mode (s : State) (sel off : Word) : (s.setCsIp sel off).mode = s.mode := rfl
@[simp] theorem setCsIp_samples (s : State) (sel off : Word) : (s.setCsIp sel off).samples = s.samples := rfl
@[simp] theorem setCsIp_raised (s : State) (sel off : Word) : (s.setCsIp sel off).raised = s.raised := rfl
@[simp] theorem setCsIp_trace (s : State) (sel off : Word) : (s.setCsIp sel off).trace = s.trace := rfl
@[simp] theorem setCsIp_input (s : State) (sel off : Word) : (s.setCsIp sel off).input = s.input := rfl
@[simp] theorem setCsIp_cfg (s : State) (sel off : Word) : (s.setCsIp sel off).cfg = s.cfg := rfl
@[simp] theorem setCsIp_ext (s : State) (sel off : Word) : (s.setCsIp sel off).ext = s.ext := rfl
@[simp] theorem setCsIp_cur (s : State) (sel off : Word) : (s.setCsIp sel off).cur = s.cur := rfl
@[simp] theorem setCsIp_reg16 (s : State) (sel off : Word) (q' : Reg16) : (s.setCsIp sel off).reg16 q' = s.reg16 q' := rfl
@[simp] theorem setCsIp_reg8 (s : State) (sel off : Word) (q' : Reg8) : (s.setCsIp sel off).reg8 q' = s.reg8 q' := rfl
@[simp] theorem setCsIp_unset8 (s : State) (sel off : Word) (q' : Reg8) : (s.setCsIp sel off).unset8 q' = s.unset8 q' := rfl
@[simp] theorem setCsIp_unset16 (s : State) (sel off : Word) (q' : Reg16) : (s.setCsIp sel off).unset16 q' = s.unset16 q' := rfl
@[simp] theorem setCsIp_flag (s : State) (sel off : Word) (q' : Flag) : (s.setCsIp sel off).flag q' = s.flag q' := rfl
@[simp] theorem setCsIp_locate (s : State) (sel off : Word) (a' : Phys) : (s.setCsIp sel off).locate a' = s.locate a' := rfl
@[simp] theorem setCsIp_readPlace (s : State) (sel off : Word) (p' : Place) : (s.setCsIp sel off).readPlace p' = s.readPlace p' := rfl
@[simp] theorem setCsIp_busRead8 (s : State) (sel off : Word) (a' : Phys) : (s.setCsIp sel off).busRead8 a' = s.busRead8 a' := rfl
@[simp] theorem setCsIp_mem8 (s : State) (sel off : Word) (sg' off' : Word) : (s.setCsIp sel off).mem8 sg' off' = s.mem8 sg' off' := rfl
@[simp] theorem setCsIp_mem16 (s : State) (sel off : Word) (sg' off' : Word) : (s.setCsIp sel off).mem16 sg' off' = s.mem16 sg' off' := rfl
@[simp] theorem setCsIp_unsetPlace (s : State) (sel off : Word) (p' : Place) : (s.setCsIp sel off).unsetPlace p' = s.unsetPlace p' := rfl
@[simp] theorem setCsIp_unsetMem8 (s : State) (sel off : Word) (sg' off' : Word) : (s.setCsIp sel off).unsetMem8 sg' off' = s.unsetMem8 sg' off' := rfl
@[simp] theorem setCsIp_unsetMem16 (s : State) (sel off : Word) (sg' off' : Word) : (s.setCsIp sel off).unsetMem16 sg' off' = s.unsetMem16 sg' off' := rfl
@[simp] theorem setCsIp_eaOff (s : State) (sel off : Word) (m' : Mem) : (s.setCsIp sel off).eaOff m' = s.eaOff m' := rfl
@[simp] theorem setCsIp_read8 (s : State) (sel off : Word) (l' : Loc8) : (s.setCsIp sel off).read8 l' = s.read8 l' := rfl
@[simp] theorem setCsIp_read16 (s : State) (sel off : Word) (l' : Loc16) : (s.setCsIp sel off).read16 l' = s.read16 l' := rfl
@[simp] theorem setCsIp_delta (s : State) (sel off : Word) (n' : Word) : (s.setCsIp sel off).delta n' = s.delta n' := rfl
@[simp] theorem setCsIp_portOwner (s : State) (sel off : Word) (p' : Word) : (s.setCsIp sel off).portOwner p' = s.portOwner p' := rfl
@[simp] theorem setCsIp_portRead8 (s : State) (sel off : Word) (p' : Word) : (s.setCsIp sel off).portRead8 p' = s.portRead8 p' := rfl
@[simp] theorem setCsIp_highestPending (s : State) (sel off : Word) : (s.setCsIp sel off).highestPending = s.highestPending := rfl
@[simp] theorem setCsIp_shiftCount (s : State) (sel off : Word) (c' : Byte) : (s.setCsIp sel off).shiftCount c' = s.shiftCount c' := rfl
@[simp] theorem setCsIp_timer (s : State) (sel off : Word) (j' : Nat) : (s.setCsIp sel off).timer j' = s.timer j' := rfl
@[simp] theorem setCsIp_channel (s : State) (sel off : Word) (j' : Nat) : (s.setCsIp sel off).channel j' = s.channel j' := rfl

@[simp] theorem setHalted_regs (s : State) (b : Bool) : (s.setHalted b).regs = s.regs := rfl
@[simp] theorem setHalted_unset (s : State) (b : Bool) : (s.setHalted b).unset = s.unset := rfl
@[simp] theorem setHalted_segs (s : State) (b : Bool) : (s.setHalted b).segs = s.segs := rfl
@[simp] theorem setHalted_ip (s : State) (b : Bool) : (s.setHalted b).ip = s.ip := rfl
@[simp] theorem setHalted_flags (s : State) (b : Bool) : (s.setHalted b).flags = s.flags := rfl
@[simp] theorem setHalted_halted (s : State) (b : Bool) : (s.setHalted b).halted = b := rfl
@[simp] theorem setHalted_shadow (s : State) (b : Bool) : (s.setHalted b).shadow = s.shadow := rfl
@[simp] theorem setHalted_diag (s : State) (b : Bool) : (s.setHalted b).diag = s.diag := rfl
@[simp] theorem setHalted_faults (s : State) (b : Bool) : (s.setHalted b).faults = s.faults := rfl
@[simp] theorem setHalted_ic (s : State) (b : Bool) : (s.setHalted b).ic = s.ic := rfl
@[simp] theorem setHalted_timers (s : State) (b : Bool) : (s.setHalted b).timers = s.timers := rfl
@[simp] theorem setHalted_ppu (s : State) (b : Bool) : (s.setHalted b).ppu = s.ppu := rfl
@[simp] theorem setHalted_apu (s : State) (b : Bool) : (s.setHalted b).apu = s.apu := rfl
@[simp] theorem setHalted_banks (s : State) (b : Bool) : (s.setHalted b).banks = s.banks := rfl
@[simp] theorem setHalted_ram (s : State) (b : Bool) : (s.setHalted b).ram = s.ram := rfl
@[simp] theorem setHalted_rom (s : State) (b : Bool) : (s.setHalted b).rom = s.rom := rfl
@[simp] theorem setHalted_save (s : State) (b : Bool) : (s.setHalted b).save = s.save := rfl
@[simp] theorem setHalted_rem (s : State) (b : Bool) : (s.setHalted b).rem = s.rem := rfl
@[simp] theorem setHalted_elapsed (s : State) (b : Bool) : (s.setHalted b).elapsed = s.elapsed := rfl
@[simp] theorem setHalted_mode (s : State) (b : Bool) : (s.setHalted b).mode = s.mode := rfl
@[simp] theorem setHalted_samples (s : State) (b : Bool) : (s.setHalted b).samples = s.samples := rfl
@[simp] theorem setHalted_raised (s : State) (b : Bool) : (s.setHalted b).raised = s.raised := rfl
@[simp] theorem setHalted_trace (s : State) (b : Bool) : (s.setHalted b).trace = s.trace := rfl
@[simp] theorem setHalted_input (s : State) (b : Bool) : (s.setHalted b).input = s.input := rfl
@[simp] theorem setHalted_cfg (s : State) (b : Bool) : (s.setHalted b).cfg = s.cfg := rfl
@[simp] theorem setHalted_ext (s : State) (b : Bool) : (s.setHalted b).ext = s.ext := rfl
@[simp] theorem setHalted_cur (s : State) (b : Bool) : (s.setHalted b).cur = s.cur := rfl
@[simp] theorem setHalted_reg16 (s : State) (b : Bool) (q' : Reg16) : (s.setHalted b).reg16 q' = s.reg16 q' := rfl
@[simp] theorem setHalted_reg8 (s : State) (b : Bool) (q' : Reg8) : (s.setHalted b).reg8 q' = s.reg8 q' := rfl
@[simp] theorem setHalted_unset8 (s : State) (b : Bool) (q' : Reg8) : (s.setHalted b).unset8 q' = s.unset8 q' := rfl
@[simp] theorem setHalted_unset16 (s : State) (b : Bool) (q' : Reg16) : (s.setHalted b).unset16 q' = s.unset16 q' := rfl
@[simp] theorem setHalted_sreg (s : State) (b : Bool) (q' : SReg) : (s.setHalted b).sreg q' = s.sreg q' := rfl
@[simp] theorem setHalted_flag (s : State) (b : Bool) (q' : Flag) : (s.setHalted b).flag q' = s.flag q' := rfl
@[simp] theorem setHalted_locate (s : State) (b : Bool) (a' : Phys) : (s.setHalted b).locate a' = s.locate a' := rfl
@[simp] theorem setHalted_readPlace (s : State) (b : Bool) (p' : Place) : (s.setHalted b).readPlace p' = s.readPlace p' := rfl
@[simp] theorem setHalted_busRead8 (s : State) (b : Bool) (a' : Phys) : (s.setHalted b).busRead8 a' = s.busRead8 a' := rfl
@[simp] theorem setHalted_mem8 (s : State) (b : Bool) (sg' off' : Word) : (s.setHalted b).mem8 sg' off' = s.mem8 sg' off' := rfl
@[simp] theorem setHalted_mem16 (s : State) (b : Bool) (sg' off' : Word) : (s.setHalted b).mem16 sg' off' = s.mem16 sg' off' := rfl
@[simp] theorem setHalted_unsetPlace (s : State) (b : Bool) (p' : Place) : (s.setHalted b).unsetPlace p' = s.unsetPlace p' := rfl
@[simp] theorem setHalted_unsetMem8 (s : State) (b : Bool) (sg' off' : Word) : (s.setHalted b).unsetMem8 sg' off' = s.unsetMem8 sg' off' := rfl
@[simp] theorem setHalted_unsetMem16 (s : State) (b : Bool) (sg' off' : Word) : (s.setHalted b).unsetMem16 sg' off' = s.unsetMem16 sg' off' := rfl
@[simp] theorem setHalted_eaOff (s : State) (b : Bool) (m' : Mem) : (s.setHalted b).eaOff m' = s.eaOff m' := rfl
@[simp] theorem setHalted_eaSeg (s : State) (b : Bool) (m' : Mem) : (s.setHalted b).eaSeg m' = s.eaSeg m' := rfl
@[simp] theorem setHalted_segOr (s : State) (b : Bool) (d' : SReg) : (s.setHalted b).segOr d' = s.segOr d' := rfl
@[simp] theorem setHalted_loc8 (s : State) (b : Bool) (e' : Rm8) : (s.setHalted b).loc8 e' = s.loc8 e' := rfl
@[simp] theorem setHalted_loc16 (s : State) (b : Bool) (e' : Rm16) : (s.setHalted b).loc16 e' = s.loc16 e' := rfl
@[simp] theorem setHalted_read8 (s : State) (b : Bool) (l' : Loc8) : (s.setHalted b).read8 l' = s.read8 l' := rfl
@[simp] theorem setHalted_read16 (s : State) (b : Bool) (l' : Loc16) : (s.setHalted b).read16 l' = s.read16 l' := rfl
@[simp] theorem setHalted_rm8 (s : State) (b : Bool) (e' : Rm8) : (s.setHalted b).rm8 e' = s.rm8 e' := rfl
@[simp] theorem setHalted_rm16 (s : State) (b : Bool) (e' : Rm16) : (s.setHalted b).rm16 e' = s.rm16 e' := rfl
@[simp] theorem setHalted_ipNext (s : State) (b : Bool) (i' : Instr) : (s.setHalted b).ipNext i' = s.ipNext i' := rfl
@[simp] theorem setHalted_delta (s : State) (b : Bool) (n' : Word) : (s.setHalted b).delta n' = s.delta n' := rfl
@[simp] theorem setHalted_top (s : State) (b : Bool) : (s.setHalted b).top = s.top := rfl
@[simp] theorem setHalted_portOwner (s : State) (b : Bool) (p' : Word) : (s.setHalted b).portOwner p' = s.portOwner p' := rfl
@[simp] theorem setHalted_portRead8 (s : State) (b : Bool) (p' : Word) : (s.setHalted b).portRead8 p' = s.portRead8 p' := rfl
@[simp] theorem setHalted_highestPending (s : State) (b : Bool) : (s.setHalted b).highestPending = s.highestPending := rfl
@[simp] theorem setHalted_shiftCount (s : State) (b : Bool) (c' : Byte) : (s.setHalted b).shiftCount c' = s.shiftCount c' := rfl
@[simp] theorem setHalted_timer (s : State) (b : Bool) (j' : Nat) : (s.setHalted b).timer j' = s.timer j' := rfl
@[simp] theorem setHalted_channel (s : State) (b : Bool) (j' : Nat) : (s.setHalted b).channel j' = s.channel j' := rfl

@[simp] theorem setEntered_regs (s : State) : s.setEntered.regs = s.regs := rfl
@[simp] theorem setEntered_unset (s : State) : s.setEntered.unset = s.unset := rfl
@[simp] theorem setEntered_segs (s : State) : s.setEntered.segs = s.segs := rfl
@[simp] theorem setEntered_ip (s : State) : s.setEntered.ip = s.ip := rfl
@[simp] theorem setEntered_flags (s : State) : s.setEntered.flags = s.flags := rfl
@[simp] theorem setEntered_halted (s : State) : s.setEntered.halted = s.halted := rfl
@[simp] theorem setEntered_shadow (s : State) : s.setEntered.shadow = s.shadow := rfl
@[simp] theorem setEntered_diag (s : State) : s.setEntered.diag = s.diag := rfl
@[simp] theorem setEntered_faults (s : State) : s.setEntered.faults = s.faults := rfl
@[simp] theorem setEntered_ic (s : State) : s.setEntered.ic = s.ic := rfl
@[simp] theorem setEntered_timers (s : State) : s.setEntered.timers = s.timers := rfl
@[simp] theorem setEntered_ppu (s : State) : s.setEntered.ppu = s.ppu := rfl
@[simp] theorem setEntered_apu (s : State) : s.setEntered.apu = s.apu := rfl
@[simp] theorem setEntered_banks (s : State) : s.setEntered.banks = s.banks := rfl
@[simp] theorem setEntered_ram (s : State) : s.setEntered.ram = s.ram := rfl
@[simp] theorem setEntered_rom (s : State) : s.setEntered.rom = s.rom := rfl
@[simp] theorem setEntered_save (s : State) : s.setEntered.save = s.save := rfl
@[simp] theorem setEntered_rem (s : State) : s.setEntered.rem = s.rem := rfl
@[simp] theorem setEntered_elapsed (s : State) : s.setEntered.elapsed = s.elapsed := rfl
@[simp] theorem setEntered_mode (s : State) : s.setEntered.mode = s.mode := rfl
@[simp] theorem setEntered_samples (s : State) : s.setEntered.samples = s.samples := rfl
@[simp] theorem setEntered_raised (s : State) : s.setEntered.raised = s.raised := rfl
@[simp] theorem setEntered_trace (s : State) : s.setEntered.trace = s.trace := rfl
@[simp] theorem setEntered_input (s : State) : s.setEntered.input = s.input := rfl
@[simp] theorem setEntered_cfg (s : State) : s.setEntered.cfg = s.cfg := rfl
@[simp] theorem setEntered_ext (s : State) : s.setEntered.ext = s.ext := rfl
@[simp] theorem setEntered_cur (s : State) : s.setEntered.cur = { s.cur with entered := true } := rfl
@[simp] theorem setEntered_reg16 (s : State) (q' : Reg16) : s.setEntered.reg16 q' = s.reg16 q' := rfl
@[simp] theorem setEntered_reg8 (s : State) (q' : Reg8) : s.setEntered.reg8 q' = s.reg8 q' := rfl
@[simp] theorem setEntered_unset8 (s : State) (q' : Reg8) : s.setEntered.unset8 q' = s.unset8 q' := rfl
@[simp] theorem setEntered_unset16 (s : State) (q' : Reg16) : s.setEntered.unset16 q' = s.unset16 q' := rfl
@[simp] theorem setEntered_sreg (s : State) (q' : SReg) : s.setEntered.sreg q' = s.sreg q' := rfl
@[simp] theorem setEntered_flag (s : State) (q' : Flag) : s.setEntered.flag q' = s.flag q' := rfl
@[simp] theorem setEntered_locate (s : State) (a' : Phys) : s.setEntered.locate a' = s.locate a' := rfl
@[simp] theorem setEntered_readPlace (s : State) (p' : Place) : s.setEntered.readPlace p' = s.readPlace p' := rfl
@[simp] theorem setEntered_busRead8 (s : State) (a' : Phys) : s.setEntered.busRead8 a' = s.busRead8 a' := rfl
@[simp] theorem setEntered_mem8 (s : State) (sg' off' : Word) : s.setEntered.mem8 sg' off' = s.mem8 sg' off' := rfl
@[simp] theorem setEntered_mem16 (s : State) (sg' off' : Word) : s.setEntered.mem16 sg' off' = s.mem16 sg' off' := rfl
@[simp] theorem setEntered_unsetPlace (s : State) (p' : Place) : s.setEntered.unsetPlace p' = s.unsetPlace p' := rfl
@[simp] theorem setEntered_unsetMem8 (s : State) (sg' off' : Word) : s.setEntered.unsetMem8 sg' off' = s.unsetMem8 sg' off' := rfl
@[simp] theorem setEntered_unsetMem16 (s : State) (sg' off' : Word) : s.setEntered.unsetMem16 sg' off' = s.unsetMem16 sg' off' := rfl
@[simp] theorem setEntered_eaOff (s : State) (m' : Mem) : s.setEntered.eaOff m' = s.eaOff m' := rfl
@[simp] theorem setEntered_read8 (s : State) (l' : Loc8) : s.setEntered.read8 l' = s.read8 l' := rfl
@[simp] theorem setEntered_read16 (s : State) (l' : Loc16) : s.setEntered.read16 l' = s.read16 l' := rfl
@[simp] theorem setEntered_delta (s : State) (n' : Word) : s.setEntered.delta n' = s.delta n' := rfl
@[simp] theorem setEntered_top (s : State)  : s.setEntered.top = s.top := rfl
@[simp] theorem setEntered_portOwner (s : State) (p' : Word) : s.setEntered.portOwner p' = s.portOwner p' := rfl
@[simp] theorem setEntered_portRead8 (s : State) (p' : Word) : s.setEntered.portRead8 p' = s.portRead8 p' := rfl
@[simp] theorem setEntered_highestPending (s : State)  : s.setEntered.highestPending = s.highestPending := rfl
@[simp] theorem setEntered_shiftCount (s : State) (c' : Byte) : s.setEntered.shiftCount c' = s.shiftCount c' := rfl
@[simp] theorem setEntered_timer (s : State) (j' : Nat) : s.setEntered.timer j' = s.timer j' := rfl
@[simp] theorem setEntered_channel (s : State) (j' : Nat) : s.setEntered.channel j' = s.channel j' := rfl

@[simp] theorem setCur_regs (s : State) (c : StepCtx) : (s.setCur c).regs = s.regs := rfl
@[simp] theorem setCur_unset (s : State) (c : StepCtx) : (s.setCur c).unset = s.unset := rfl
@[simp] theorem setCur_segs (s : State) (c : StepCtx) : (s.setCur c).segs = s.segs := rfl
@[simp] theorem setCur_ip (s : State) (c : StepCtx) : (s.setCur c).ip = s.ip := rfl
@[simp] theorem setCur_flags (s : State) (c : StepCtx) : (s.setCur c).flags = s.flags := rfl
@[simp] theorem setCur_halted (s : State) (c : StepCtx) : (s.setCur c).halted = s.halted := rfl
@[simp] theorem setCur_shadow (s : State) (c : StepCtx) : (s.setCur c).shadow = s.shadow := rfl
@[simp] theorem setCur_diag (s : State) (c : StepCtx) : (s.setCur c).diag = s.diag := rfl
@[simp] theorem setCur_faults (s : State) (c : StepCtx) : (s.setCur c).faults = s.faults := rfl
@[simp] theorem setCur_ic (s : State) (c : StepCtx) : (s.setCur c).ic = s.ic := rfl
@[simp] theorem setCur_timers (s : State) (c : StepCtx) : (s.setCur c).timers = s.timers := rfl
@[simp] theorem setCur_ppu (s : State) (c : StepCtx) : (s.setCur c).ppu = s.ppu := rfl
@[simp] theorem setCur_apu (s : State) (c : StepCtx) : (s.setCur c).apu = s.apu := rfl
@[simp] theorem setCur_banks (s : State) (c : StepCtx) : (s.setCur c).banks = s.banks := rfl
@[simp] theorem setCur_ram (s : State) (c : StepCtx) : (s.setCur c).ram = s.ram := rfl
@[simp] theorem setCur_rom (s : State) (c : StepCtx) : (s.setCur c).rom = s.rom := rfl
@[simp] theorem setCur_save (s : State) (c : StepCtx) : (s.setCur c).save = s.save := rfl
@[simp] theorem setCur_rem (s : State) (c : StepCtx) : (s.setCur c).rem = s.rem := rfl
@[simp] theorem setCur_elapsed (s : State) (c : StepCtx) : (s.setCur c).elapsed = s.elapsed := rfl
@[simp] theorem setCur_mode (s : State) (c : StepCtx) : (s.setCur c).mode = s.mode := rfl
@[simp] theorem setCur_samples (s : State) (c : StepCtx) : (s.setCur c).samples = s.samples := rfl
@[simp] theorem setCur_raised (s : State) (c : StepCtx) : (s.setCur c).raised = s.raised := rfl
@[simp] theorem setCur_trace (s : State) (c : StepCtx) : (s.setCur c).trace = s.trace := rfl
@[simp] theorem setCur_input (s : State) (c : StepCtx) : (s.setCur c).input = s.input := rfl
@[simp] theorem setCur_cfg (s : State) (c : StepCtx) : (s.setCur c).cfg = s.cfg := rfl
@[simp] theorem setCur_ext (s : State) (c : StepCtx) : (s.setCur c).ext = s.ext := rfl
@[simp] theorem setCur_cur (s : State) (c : StepCtx) : (s.setCur c).cur = c := rfl
@[simp] theorem setCur_reg16 (s : State) (c : StepCtx) (q' : Reg16) : (s.setCur c).reg16 q' = s.reg16 q' := rfl
@[simp] theorem setCur_reg8 (s : State) (c : StepCtx) (q' : Reg8) : (s.setCur c).reg8 q' = s.reg8 q' := rfl
@[simp] theorem setCur_unset8 (s : State) (c : StepCtx) (q' : Reg8) : (s.setCur c).unset8 q' = s.unset8 q' := rfl
@[simp] theorem setCur_unset16 (s : State) (c : StepCtx) (q' : Reg16) : (s.setCur c).unset16 q' = s.unset16 q' := rfl
@[simp] theorem setCur_sreg (s : State) (c : StepCtx) (q' : SReg) : (s.setCur c).sreg q' = s.sreg q' := rfl
@[simp] theorem setCur_flag (s : State) (c : StepCtx) (q' : Flag) : (s.setCur c).flag q' = s.flag q' := rfl
@[simp] theorem setCur_locate (s : State) (c : StepCtx) (a' : Phys) : (s.setCur c).locate a' = s.locate a' := rfl
@[simp] theorem setCur_readPlace (s : State) (c : StepCtx) (p' : Place) : (s.setCur c).readPlace p' = s.readPlace p' := rfl
@[simp] theorem setCur_busRead8 (s : State) (c : StepCtx) (a' : Phys) : (s.setCur c).busRead8 a' = s.busRead8 a' := rfl
@[simp] theorem setCur_mem8 (s : State) (c : StepCtx) (sg' off' : Word) : (s.setCur c).mem8 sg' off' = s.mem8 sg' off' := rfl
@[simp] theorem setCur_mem16 (s : State) (c : StepCtx) (sg' off' : Word) : (s.setCur c).mem16 sg' off' = s.mem16 sg' off' := rfl
@[simp] theorem setCur_unsetPlace (s : State) (c : StepCtx) (p' : Place) : (s.setCur c).unsetPlace p' = s.unsetPlace p' := rfl
@[simp] theorem setCur_unsetMem8 (s : State) (c : StepCtx) (sg' off' : Word) : (s.setCur c).unsetMem8 sg' off' = s.unsetMem8 sg' off' := rfl
@[simp] theorem setCur_unsetMem16 (s : State) (c : StepCtx) (sg' off' : Word) : (s.setCur c).unsetMem16 sg' off' = s.unsetMem16 sg' off' := rfl
@[simp] theorem setCur_eaOff (s : State) (c : StepCtx) (m' : Mem) : (s.setCur c).eaOff m' = s.eaOff m' := rfl
@[simp] theorem setCur_read8 (s : State) (c : StepCtx) (l' : Loc8) : (s.setCur c).read8 l' = s.read8 l' := rfl
@[simp] theorem setCur_read16 (s : State) (c : StepCtx) (l' : Loc16) : (s.setCur c).read16 l' = s.read16 l' := rfl
@[simp] theorem setCur_delta (s : State) (c : StepCtx) (n' : Word) : (s.setCur c).delta n' = s.delta n' := rfl
@[simp] theorem setCur_top (s : State) (c : StepCtx) : (s.setCur c).top = s.top := rfl
@[simp] theorem setCur_portOwner (s : State) (c : StepCtx) (p' : Word) : (s.setCur c).portOwner p' = s.portOwner p' := rfl
@[simp] theorem setCur_portRead8 (s : State) (c : StepCtx) (p' : Word) : (s.setCur c).portRead8 p' = s.portRead8 p' := rfl
@[simp] theorem setCur_highestPending (s : State) (c : StepCtx) : (s.setCur c).highestPending = s.highestPending := rfl
@[simp] theorem setCur_shiftCount (s : State) (c : StepCtx) (c' : Byte) : (s.setCur c).shiftCount c' = s.shiftCount c' := rfl
@[simp] theorem setCur_timer (s : State) (c : StepCtx) (j' : Nat) : (s.setCur c).timer j' = s.timer j' := rfl
@[simp] theorem setCur_channel (s : State) (c : StepCtx) (j' : Nat) : (s.setCur c).channel j' = s.channel j' := rfl

@[simp] theorem setShadow_regs (s : State) : s.setShadow.regs = s.regs := by unfold State.setShadow; split <;> rfl
@[simp] theorem setShadow_unset (s : State) : s.setShadow.unset = s.unset := by unfold State.setShadow; split <;> rfl
@[simp] theorem setShadow_segs (s : State) : s.setShadow.segs = s.segs := by unfold State.setShadow; split <;> rfl
@[simp] theorem setShadow_ip (s : State) : s.setShadow.ip = s.ip := by unfold State.setShadow; split <;> rfl
@[simp] theorem setShadow_flags (s : State) : s.setShadow.flags = s.flags := by unfold State.setShadow; split <;> rfl
@[simp] theorem setShadow_halted (s : State) : s.setShadow.halted = s.halted := by unfold State.setShadow; split <;> rfl
@[simp] theorem setShadow_diag (s : State) : s.setShadow.diag = s.diag := by unfold State.setShadow; split <;> rfl
@[simp] theorem setShadow_faults (s : State) : s.setShadow.faults = s.faults := by unfold State.setShadow; split <;> rfl
@[simp] theorem setShadow_ic (s : State) : s.setShadow.ic = s.ic := by unfold State.setShadow; split <;> rfl
@[simp] theorem setShadow_timers (s : State) : s.setShadow.timers = s.timers := by unfold State.setShadow; split <;> rfl
@[simp] theorem setShadow_ppu (s : State) : s.setShadow.ppu = s.ppu := by unfold State.setShadow; split <;> rfl
@[simp] theorem setShadow_apu (s : State) : s.setShadow.apu = s.apu := by unfold State.setShadow; split <;> rfl
@[simp] theorem setShadow_banks (s : State) : s.setShadow.banks = s.banks := by unfold State.setShadow; split <;> rfl
@[simp] theorem setShadow_ram (s : State) : s.setShadow.ram = s.ram := by unfold State.setShadow; split <;> rfl
@[simp] theorem setShadow_rom (s : State) : s.setShadow.rom = s.rom := by unfold State.setShadow; split <;> rfl
@[simp] theorem setShadow_save (s : State) : s.setShadow.save = s.save := by unfold State.setShadow; split <;> rfl
@[simp] theorem setShadow_rem (s : State) : s.setShadow.rem = s.rem := by unfold State.setShadow; split <;> rfl
@[simp] theorem setShadow_elapsed (s : State) : s.setShadow.elapsed = s.elapsed := by unfold State.setShadow; split <;> rfl
@[simp] theorem setShadow_mode (s : State) : s.setShadow.mode = s.mode := by unfold State.setShadow; split <;> rfl
@[simp] theorem setShadow_samples (s : State) : s.setShadow.samples = s.samples := by unfold State.setShadow; split <;> rfl
@[simp] theorem setShadow_raised (s : State) : s.setShadow.raised = s.raised := by unfold State.setShadow; split <;> rfl
@[simp] theorem setShadow_trace (s : State) : s.setShadow.trace = s.trace := by unfold State.setShadow; split <;> rfl
@[simp] theorem setShadow_input (s : State) : s.setShadow.input = s.input := by unfold State.setShadow; split <;> rfl
@[simp] theorem setShadow_cfg (s : State) : s.setShadow.cfg = s.cfg := by unfold State.setShadow; split <;> rfl
@[simp] theorem setShadow_ext (s : State) : s.setShadow.ext = s.ext := by unfold State.setShadow; split <;> rfl
@[simp] theorem setShadow_cur (s : State) : s.setShadow.cur = s.cur := by unfold State.setShadow; split <;> rfl
@[simp] theorem setShadow_reg16 (s : State) (q' : Reg16) : s.setShadow.reg16 q' = s.reg16 q' := by unfold State.setShadow; split <;> rfl
@[simp] theorem setShadow_reg8 (s : State) (q' : Reg8) : s.setShadow.reg8 q' = s.reg8 q' := by unfold State.setShadow; split <;> rfl
@[simp] theorem setShadow_unset8 (s : State) (q' : Reg8) : s.setShadow.unset8 q' = s.unset8 q' := by unfold State.setShadow; split <;> rfl
@[simp] theorem setShadow_unset16 (s : State) (q' : Reg16) : s.setShadow.unset16 q' = s.unset16 q' := by unfold State.setShadow; split <;> rfl
@[simp] theorem setShadow_sreg (s : State) (q' : SReg) : s.setShadow.sreg q' = s.sreg q' := by unfold State.setShadow; split <;> rfl
@[simp] theorem setShadow_flag (s : State) (q' : Flag) : s.setShadow.flag q' = s.flag q' := by unfold State.setShadow; split <;> rfl
@[simp] theorem setShadow_locate (s : State) (a' : Phys) : s.setShadow.locate a' = s.locate a' := by unfold State.setShadow; split <;> rfl
@[simp] theorem setShadow_readPlace (s : State) (p' : Place) : s.setShadow.readPlace p' = s.readPlace p' := by unfold State.setShadow; split <;> rfl
@[simp] theorem setShadow_busRead8 (s : State) (a' : Phys) : s.setShadow.busRead8 a' = s.busRead8 a' := by unfold State.setShadow; split <;> rfl
@[simp] theorem setShadow_mem8 (s : State) (sg' off' : Word) : s.setShadow.mem8 sg' off' = s.mem8 sg' off' := by unfold State.setShadow; split <;> rfl
@[simp] theorem setShadow_mem16 (s : State) (sg' off' : Word) : s.setShadow.mem16 sg' off' = s.mem16 sg' off' := by unfold State.setShadow; split <;> rfl
@[simp] theorem setShadow_unsetPlace (s : State) (p' : Place) : s.setShadow.unsetPlace p' = s.unsetPlace p' := by unfold State.setShadow; split <;> rfl
@[simp] theorem setShadow_unsetMem8 (s : State) (sg' off' : Word) : s.setShadow.unsetMem8 sg' off' = s.unsetMem8 sg' off' := by unfold State.setShadow; split <;> rfl
@[simp] theorem setShadow_unsetMem16 (s : State) (sg' off' : Word) : s.setShadow.unsetMem16 sg' off' = s.unsetMem16 sg' off' := by unfold State.setShadow; split <;> rfl
@[simp] theorem setShadow_eaOff (s : State) (m' : Mem) : s.setShadow.eaOff m' = s.eaOff m' := by unfold State.setShadow; split <;> rfl
@[simp] theorem setShadow_eaSeg (s : State) (m' : Mem) : s.setShadow.eaSeg m' = s.eaSeg m' := by unfold State.setShadow; split <;> rfl
@[simp] theorem setShadow_segOr (s : State) (d' : SReg) : s.setShadow.segOr d' = s.segOr d' := by unfold State.setShadow; split <;> rfl
@[simp] theorem setShadow_loc8 (s : State) (e' : Rm8) : s.setShadow.loc8 e' = s.loc8 e' := by unfold State.setShadow; split <;> rfl
@[simp] theorem setShadow_loc16 (s : State) (e' : Rm16) : s.setShadow.loc16 e' = s.loc16 e' := by unfold State.setShadow; split <;> rfl
@[simp] theorem setShadow_read8 (s : State) (l' : Loc8) : s.setShadow.read8 l' = s.read8 l' := by unfold State.setShadow; split <;> rfl
@[simp] theorem setShadow_read16 (s : State) (l' : Loc16) : s.setShadow.read16 l' = s.read16 l' := by unfold State.setShadow; split <;> rfl
@[simp] theorem setShadow_rm8 (s : State) (e' : Rm8) : s.setShadow.rm8 e' = s.rm8 e' := by unfold State.setShadow; split <;> rfl
@[simp] theorem setShadow_rm16 (s : State) (e' : Rm16) : s.setShadow.rm16 e' = s.rm16 e' := by unfold State.setShadow; split <;> rfl
@[simp] theorem setShadow_ipNext (s : State) (i' : Instr) : s.setShadow.ipNext i' = s.ipNext i' := by unfold State.setShadow; split <;> rfl
@[simp] theorem setShadow_delta (s : State) (n' : Word) : s.setShadow.delta n' = s.delta n' := by unfold State.setShadow; split <;> rfl
@[simp] theorem setShadow_top (s : State)  : s.setShadow.top = s.top := by unfold State.setShadow; split <;> rfl
@[simp] theorem setShadow_portOwner (s : State) (p' : Word) : s.setShadow.portOwner p' = s.portOwner p' := by unfold State.setShadow; split <;> rfl
@[simp] theorem setShadow_portRead8 (s : State) (p' : Word) : s.setShadow.portRead8 p' = s.portRead8 p' := by unfold State.setShadow; split <;> rfl
@[simp] theorem setShadow_highestPending (s : State)  : s.setShadow.highestPending = s.highestPending := by unfold State.setShadow; split <;> rfl
@[simp] theorem setShadow_shiftCount (s : State) (c' : Byte) : s.setShadow.shiftCount c' = s.shiftCount c' := by unfold State.setShadow; split <;> rfl
@[simp] theorem setShadow_timer (s : State) (j' : Nat) : s.setShadow.timer j' = s.timer j' := by unfold State.setShadow; split <;> rfl
@[simp] theorem setShadow_channel (s : State) (j' : Nat) : s.setShadow.channel j' = s.channel j' := by unfold State.setShadow; split <;> rfl

@[simp] theorem setRaised_regs (s : State) (m : BitVec 8) : (s.setRaised m).regs = s.regs := rfl
@[simp] theorem setRaised_unset (s : State) (m : BitVec 8) : (s.setRaised m).unset = s.unset := rfl
@[simp] theorem setRaised_segs (s : State) (m : BitVec 8) : (s.setRaised m).segs = s.segs := rfl
@[simp] theorem setRaised_ip (s : State) (m : BitVec 8) : (s.setRaised m).ip = s.ip := rfl
@[simp] theorem setRaised_flags (s : State) (m : BitVec 8) : (s.setRaised m).flags = s.flags := rfl
@[simp] theorem setRaised_halted (s : State) (m : BitVec 8) : (s.setRaised m).halted = s.halted := rfl
@[simp] theorem setRaised_shadow (s : State) (m : BitVec 8) : (s.setRaised m).shadow = s.shadow := rfl
@[simp] theorem setRaised_diag (s : State) (m : BitVec 8) : (s.setRaised m).diag = s.diag := rfl
@[simp] theorem setRaised_faults (s : State) (m : BitVec 8) : (s.setRaised m).faults = s.faults := rfl
@[simp] theorem setRaised_ic (s : State) (m : BitVec 8) : (s.setRaised m).ic = s.ic := rfl
@[simp] theorem setRaised_timers (s : State) (m : BitVec 8) : (s.setRaised m).timers = s.timers := rfl
@[simp] theorem setRaised_ppu (s : State) (m : BitVec 8) : (s.setRaised m).ppu = s.ppu := rfl
@[simp] theorem setRaised_apu (s : State) (m : BitVec 8) : (s.setRaised m).apu = s.apu := rfl
@[simp] theorem setRaised_banks (s : State) (m : BitVec 8) : (s.setRaised m).banks = s.banks := rfl
@[simp] theorem setRaised_ram (s : State) (m : BitVec 8) : (s.setRaised m).ram = s.ram := rfl
@[simp] theorem setRaised_rom (s : State) (m : BitVec 8) : (s.setRaised m).rom = s.rom := rfl
@[simp] theorem setRaised_save (s : State) (m : BitVec 8) : (s.setRaised m).save = s.save := rfl
@[simp] theorem setRaised_rem (s : State) (m : BitVec 8) : (s.setRaised m).rem = s.rem := rfl
@[simp] theorem setRaised_elapsed (s : State) (m : BitVec 8) : (s.setRaised m).elapsed = s.elapsed := rfl
@[simp] theorem setRaised_mode (s : State) (m : BitVec 8) : (s.setRaised m).mode = s.mode := rfl
@[simp] theorem setRaised_samples (s : State) (m : BitVec 8) : (s.setRaised m).samples = s.samples := rfl
@[simp] theorem setRaised_raised (s : State) (m : BitVec 8) : (s.setRaised m).raised = m := rfl
@[simp] theorem setRaised_trace (s : State) (m : BitVec 8) : (s.setRaised m).trace = s.trace := rfl
@[simp] theorem setRaised_input (s : State) (m : BitVec 8) : (s.setRaised m).input = s.input := rfl
@[simp] theorem setRaised_cfg (s : State) (m : BitVec 8) : (s.setRaised m).cfg = s.cfg := rfl
@[simp] theorem setRaised_ext (s : State) (m : BitVec 8) : (s.setRaised m).ext = s.ext := rfl
@[simp] theorem setRaised_cur (s : State) (m : BitVec 8) : (s.setRaised m).cur = s.cur := rfl
@[simp] theorem setRaised_reg16 (s : State) (m : BitVec 8) (q' : Reg16) : (s.setRaised m).reg16 q' = s.reg16 q' := rfl
@[simp] theorem setRaised_reg8 (s : State) (m : BitVec 8) (q' : Reg8) : (s.setRaised m).reg8 q' = s.reg8 q' := rfl
@[simp] theorem setRaised_unset8 (s : State) (m : BitVec 8) (q' : Reg8) : (s.setRaised m).unset8 q' = s.unset8 q' := rfl
@[simp] theorem setRaised_unset16 (s : State) (m : BitVec 8) (q' : Reg16) : (s.setRaised m).unset16 q' = s.unset16 q' := rfl
@[simp] theorem setRaised_sreg (s : State) (m : BitVec 8) (q' : SReg) : (s.setRaised m).sreg q' = s.sreg q' := rfl
@[simp] theorem setRaised_flag (s : State) (m : BitVec 8) (q' : Flag) : (s.setRaised m).flag q' = s.flag q' := rfl
@[simp] theorem setRaised_locate (s : State) (m : BitVec 8) (a' : Phys) : (s.setRaised m).locate a' = s.locate a' := rfl
@[simp] theorem setRaised_readPlace (s : State) (m : BitVec 8) (p' : Place) : (s.setRaised m).readPlace p' = s.readPlace p' := rfl
@[simp] theorem setRaised_busRead8 (s : State) (m : BitVec 8) (a' : Phys) : (s.setRaised m).busRead8 a' = s.busRead8 a' := rfl
@[simp] theorem setRaised_mem8 (s : State) (m : BitVec 8) (sg' off' : Word) : (s.setRaised m).mem8 sg' off' = s.mem8 sg' off' := rfl
@[simp] theorem setRaised_mem16 (s : State) (m : BitVec 8) (sg' off' : Word) : (s.setRaised m).mem16 sg' off' = s.mem16 sg' off' := rfl
@[simp] theorem setRaised_unsetPlace (s : State) (m : BitVec 8) (p' : Place) : (s.setRaised m).unsetPlace p' = s.unsetPlace p' := rfl
@[simp] theorem setRaised_unsetMem8 (s : State) (m : BitVec 8) (sg' off' : Word) : (s.setRaised m).unsetMem8 sg' off' = s.unsetMem8 sg' off' := rfl
@[simp] theorem setRaised_unsetMem16 (s : State) (m : BitVec 8) (sg' off' : Word) : (s.setRaised m).unsetMem16 sg' off' = s.unsetMem16 sg' off' := rfl
@[simp] theorem setRaised_eaOff (s : State) (m : BitVec 8) (m' : Mem) : (s.setRaised m).eaOff m' = s.eaOff m' := rfl
@[simp] theorem setRaised_eaSeg (s : State) (m : BitVec 8) (m' : Mem) : (s.setRaised m).eaSeg m' = s.eaSeg m' := rfl
@[simp] theorem setRaised_segOr (s : State) (m : BitVec 8) (d' : SReg) : (s.setRaised m).segOr d' = s.segOr d' := rfl
@[simp] theorem setRaised_loc8 (s : State) (m : BitVec 8) (e' : Rm8) : (s.setRaised m).loc8 e' = s.loc8 e' := rfl
@[simp] theorem setRaised_loc16 (s : State) (m : BitVec 8) (e' : Rm16) : (s.setRaised m).loc16 e' = s.loc16 e' := rfl
@[simp] theorem setRaised_read8 (s : State) (m : BitVec 8) (l' : Loc8) : (s.setRaised m).read8 l' = s.read8 l' := rfl
@[simp] theorem setRaised_read16 (s : State) (m : BitVec 8) (l' : Loc16) : (s.setRaised m).read16 l' = s.read16 l' := rfl
@[simp] theorem setRaised_rm8 (s : State) (m : BitVec 8) (e' : Rm8) : (s.setRaised m).rm8 e' = s.rm8 e' := rfl
@[simp] theorem setRaised_rm16 (s : State) (m : BitVec 8) (e' : Rm16) : (s.setRaised m).rm16 e' = s.rm16 e' := rfl
@[simp] theorem setRaised_ipNext (s : State) (m : BitVec 8) (i' : Instr) : (s.setRaised m).ipNext i' = s.ipNext i' := rfl
@[simp] theorem setRaised_delta (s : State) (m : BitVec 8) (n' : Word) : (s.setRaised m).delta n' = s.delta n' := rfl
@[simp] theorem setRaised_top (s : State) (m : BitVec 8) : (s.setRaised m).top = s.top := rfl
@[simp] theorem setRaised_portOwner (s : State) (m : BitVec 8) (p' : Word) : (s.setRaised m).portOwner p' = s.portOwner p' := rfl
@[simp] theorem setRaised_portRead8 (s : State) (m : BitVec 8) (p' : Word) : (s.setRaised m).portRead8 p' = s.portRead8 p' := rfl
@[simp] theorem setRaised_highestPending (s : State) (m : BitVec 8) : (s.setRaised m).highestPending = s.highestPending := rfl
@[simp] theorem setRaised_shiftCount (s : State) (m : BitVec 8) (c' : Byte) : (s.setRaised m).shiftCount c' = s.shiftCount c' := rfl
@[simp] theorem setRaised_timer (s : State) (m : BitVec 8) (j' : Nat) : (s.setRaised m).timer j' = s.timer j' := rfl
@[simp] theorem setRaised_channel (s : State) (m : BitVec 8) (j' : Nat) : (s.setRaised m).channel j' = s.channel j' := rfl

@[simp] theorem setIc_regs (s : State) (c : Ic) : (s.setIc c).regs = s.regs := rfl
@[simp] theorem setIc_unset (s : State) (c : Ic) : (s.setIc c).unset = s.unset := rfl
@[simp] theorem setIc_segs (s : State) (c : Ic) : (s.setIc c).segs = s.segs := rfl
@[simp] theorem setIc_ip (s : State) (c : Ic) : (s.setIc c).ip = s.ip := rfl
@[simp] theorem setIc_flags (s : State) (c : Ic) : (s.setIc c).flags = s.flags := rfl
@[simp] theorem setIc_halted (s : State) (c : Ic) : (s.setIc c).halted = s.halted := rfl
@[simp] theorem setIc_shadow (s : State) (c : Ic) : (s.setIc c).shadow = s.shadow := rfl
@[simp] theorem setIc_diag (s : State) (c : Ic) : (s.setIc c).diag = s.diag := rfl
@[simp] theorem setIc_faults (s : State) (c : Ic) : (s.setIc c).faults = s.faults := rfl
@[simp] theorem setIc_ic (s : State) (c : Ic) : (s.setIc c).ic = c := rfl
@[simp] theorem setIc_timers (s : State) (c : Ic) : (s.setIc c).timers = s.timers := rfl
@[simp] theorem setIc_ppu (s : State) (c : Ic) : (s.setIc c).ppu = s.ppu := rfl
@[simp] theorem setIc_apu (s : State) (c : Ic) : (s.setIc c).apu = s.apu := rfl
@[simp] theorem setIc_banks (s : State) (c : Ic) : (s.setIc c).banks = s.banks := rfl
@[simp] theorem setIc_ram (s : State) (c : Ic) : (s.setIc c).ram = s.ram := rfl
@[simp] theorem setIc_rom (s : State) (c : Ic) : (s.setIc c).rom = s.rom := rfl
@[simp] theorem setIc_save (s : State) (c : Ic) : (s.setIc c).save = s.save := rfl
@[simp] theorem setIc_rem (s : State) (c : Ic) : (s.setIc c).rem = s.rem := rfl
@[simp] theorem setIc_elapsed (s : State) (c : Ic) : (s.setIc c).elapsed = s.elapsed := rfl
@[simp] theorem setIc_mode (s : State) (c : Ic) : (s.setIc c).mode = s.mode := rfl
@[simp] theorem setIc_samples (s : State) (c : Ic) : (s.setIc c).samples = s.samples := rfl
@[simp] theorem setIc_raised (s : State) (c : Ic) : (s.setIc c).raised = s.raised := rfl
@[simp] theorem setIc_trace (s : State) (c : Ic) : (s.setIc c).trace = s.trace := rfl
@[simp] theorem setIc_input (s : State) (c : Ic) : (s.setIc c).input = s.input := rfl
@[simp] theorem setIc_cfg (s : State) (c : Ic) : (s.setIc c).cfg = s.cfg := rfl
@[simp] theorem setIc_ext (s : State) (c : Ic) : (s.setIc c).ext = s.ext := rfl
@[simp] theorem setIc_cur (s : State) (c : Ic) : (s.setIc c).cur = s.cur := rfl
@[simp] theorem setIc_reg16 (s : State) (c : Ic) (q' : Reg16) : (s.setIc c).reg16 q' = s.reg16 q' := rfl
@[simp] theorem setIc_reg8 (s : State) (c : Ic) (q' : Reg8) : (s.setIc c).reg8 q' = s.reg8 q' := rfl
@[simp] theorem setIc_unset8 (s : State) (c : Ic) (q' : Reg8) : (s.setIc c).unset8 q' = s.unset8 q' := rfl
@[simp] theorem setIc_unset16 (s : State) (c : Ic) (q' : Reg16) : (s.setIc c).unset16 q' = s.unset16 q' := rfl
@[simp] theorem setIc_sreg (s : State) (c : Ic) (q' : SReg) : (s.setIc c).sreg q' = s.sreg q' := rfl
@[simp] theorem setIc_flag (s : State) (c : Ic) (q' : Flag) : (s.setIc c).flag q' = s.flag q' := rfl
@[simp] theorem setIc_locate (s : State) (c : Ic) (a' : Phys) : (s.setIc c).locate a' = s.locate a' := rfl
@[simp] theorem setIc_readPlace (s : State) (c : Ic) (p' : Place) : (s.setIc c).readPlace p' = s.readPlace p' := rfl
@[simp] theorem setIc_busRead8 (s : State) (c : Ic) (a' : Phys) : (s.setIc c).busRead8 a' = s.busRead8 a' := rfl
@[simp] theorem setIc_mem8 (s : State) (c : Ic) (sg' off' : Word) : (s.setIc c).mem8 sg' off' = s.mem8 sg' off' := rfl
@[simp] theorem setIc_mem16 (s : State) (c : Ic) (sg' off' : Word) : (s.setIc c).mem16 sg' off' = s.mem16 sg' off' := rfl
@[simp] theorem setIc_unsetPlace (s : State) (c : Ic) (p' : Place) : (s.setIc c).unsetPlace p' = s.unsetPlace p' := rfl
@[simp] theorem setIc_unsetMem8 (s : State) (c : Ic) (sg' off' : Word) : (s.setIc c).unsetMem8 sg' off' = s.unsetMem8 sg' off' := rfl
@[simp] theorem setIc_unsetMem16 (s : State) (c : Ic) (sg' off' : Word) : (s.setIc c).unsetMem16 sg' off' = s.unsetMem16 sg' off' := rfl
@[simp] theorem setIc_eaOff (s : State) (c : Ic) (m' : Mem) : (s.setIc c).eaOff m' = s.eaOff m' := rfl
@[simp] theorem setIc_eaSeg (s : State) (c : Ic) (m' : Mem) : (s.setIc c).eaSeg m' = s.eaSeg m' := rfl
@[simp] theorem setIc_segOr (s : State) (c : Ic) (d' : SReg) : (s.setIc c).segOr d' = s.segOr d' := rfl
@[simp] theorem setIc_loc8 (s : State) (c : Ic) (e' : Rm8) : (s.setIc c).loc8 e' = s.loc8 e' := rfl
@[simp] theorem setIc_loc16 (s : State) (c : Ic) (e' : Rm16) : (s.setIc c).loc16 e' = s.loc16 e' := rfl
@[simp] theorem setIc_read8 (s : State) (c : Ic) (l' : Loc8) : (s.setIc c).read8 l' = s.read8 l' := rfl
@[simp] theorem setIc_read16 (s : State) (c : Ic) (l' : Loc16) : (s.setIc c).read16 l' = s.read16 l' := rfl
@[simp] theorem setIc_rm8 (s : State) (c : Ic) (e' : Rm8) : (s.setIc c).rm8 e' = s.rm8 e' := rfl
@[simp] theorem setIc_rm16 (s : State) (c : Ic) (e' : Rm16) : (s.setIc c).rm16 e' = s.rm16 e' := rfl
@[simp] theorem setIc_ipNext (s : State) (c : Ic) (i' : Instr) : (s.setIc c).ipNext i' = s.ipNext i' := rfl
@[simp] theorem setIc_delta (s : State) (c : Ic) (n' : Word) : (s.setIc c).delta n' = s.delta n' := rfl
@[simp] theorem setIc_top (s : State) (c : Ic) : (s.setIc c).top = s.top := rfl
@[simp] theorem setIc_portOwner (s : State) (c : Ic) (p' : Word) : (s.setIc c).portOwner p' = s.portOwner p' := rfl
@[simp] theorem setIc_shiftCount (s : State) (c : Ic) (c' : Byte) : (s.setIc c).shiftCount c' = s.shiftCount c' := rfl
@[simp] theorem setIc_timer (s : State) (c : Ic) (j' : Nat) : (s.setIc c).timer j' = s.timer j' := rfl
@[simp] theorem setIc_channel (s : State) (c : Ic) (j' : Nat) : (s.setIc c).channel j' = s.channel j' := rfl

@[simp] theorem setTimer_regs (s : State) (k : Nat) (t : Timer) : (s.setTimer k t).regs = s.regs := rfl
@[simp] theorem setTimer_unset (s : State) (k : Nat) (t : Timer) : (s.setTimer k t).unset = s.unset := rfl
@[simp] theorem setTimer_segs (s : State) (k : Nat) (t : Timer) : (s.setTimer k t).segs = s.segs := rfl
@[simp] theorem setTimer_ip (s : State) (k : Nat) (t : Timer) : (s.setTimer k t).ip = s.ip := rfl
@[simp] theorem setTimer_flags (s : State) (k : Nat) (t : Timer) : (s.setTimer k t).flags = s.flags := rfl
@[simp] theorem setTimer_halted (s : State) (k : Nat) (t : Timer) : (s.setTimer k t).halted = s.halted := rfl
@[simp] theorem setTimer_shadow (s : State) (k : Nat) (t : Timer) : (s.setTimer k t).shadow = s.shadow := rfl
@[simp] theorem setTimer_diag (s : State) (k : Nat) (t : Timer) : (s.setTimer k t).diag = s.diag := rfl
@[simp] theorem setTimer_faults (s : State) (k : Nat) (t : Timer) : (s.setTimer k t).faults = s.faults := rfl
@[simp] theorem setTimer_ic (s : State) (k : Nat) (t : Timer) : (s.setTimer k t).ic = s.ic := rfl
@[simp] theorem setTimer_timers (s : State) (k : Nat) (t : Timer) : (s.setTimer k t).timers = s.timers.set k t := rfl
@[simp] theorem setTimer_ppu (s : State) (k : Nat) (t : Timer) : (s.setTimer k t).ppu = s.ppu := rfl
@[simp] theorem setTimer_apu (s : State) (k : Nat) (t : Timer) : (s.setTimer k t).apu = s.apu := rfl
@[simp] theorem setTimer_banks (s : State) (k : Nat) (t : Timer) : (s.setTimer k t).banks = s.banks := rfl
@[simp] theorem setTimer_ram (s : State) (k : Nat) (t : Timer) : (s.setTimer k t).ram = s.ram := rfl
@[simp] theorem setTimer_rom (s : State) (k : Nat) (t : Timer) : (s.setTimer k t).rom = s.rom := rfl
@[simp] theorem setTimer_save (s : State) (k : Nat) (t : Timer) : (s.setTimer k t).save = s.save := rfl
@[simp] theorem setTimer_rem (s : State) (k : Nat) (t : Timer) : (s.setTimer k t).rem = s.rem := rfl
@[simp] theorem setTimer_elapsed (s : State) (k : Nat) (t : Timer) : (s.setTimer k t).elapsed = s.elapsed := rfl
@[simp] theorem setTimer_mode (s : State) (k : Nat) (t : Timer) : (s.setTimer k t).mode = s.mode := rfl
@[simp] theorem setTimer_samples (s : State) (k : Nat) (t : Timer) : (s.setTimer k t).samples = s.samples := rfl
@[simp] theorem setTimer_raised (s : State) (k : Nat) (t : Timer) : (s.setTimer k t).raised = s.raised := rfl
@[simp] theorem setTimer_trace (s : State) (k : Nat) (t : Timer) : (s.setTimer k t).trace = s.trace := rfl
@[simp] theorem setTimer_input (s : State) (k : Nat) (t : Timer) : (s.setTimer k t).input = s.input := rfl
@[simp] theorem setTimer_cfg (s : State) (k : Nat) (t : Timer) : (s.setTimer k t).cfg = s.cfg := rfl
@[simp] theorem setTimer_ext (s : State) (k : Nat) (t : Timer) : (s.setTimer k t).ext = s.ext := rfl
@[simp] theorem setTimer_cur (s : State) (k : Nat) (t : Timer) : (s.setTimer k t).cur = s.cur := rfl
@[simp] theorem setTimer_reg16 (s : State) (k : Nat) (t : Timer) (q' : Reg16) : (s.setTimer k t).reg16 q' = s.reg16 q' := rfl
@[simp] theorem setTimer_reg8 (s : State) (k : Nat) (t : Timer) (q' : Reg8) : (s.setTimer k t).reg8 q' = s.reg8 q' := rfl
@[simp] theorem setTimer_unset8 (s : State) (k : Nat) (t : Timer) (q' : Reg8) : (s.setTimer k t).unset8 q' = s.unset8 q' := rfl
@[simp] theorem setTimer_unset16 (s : State) (k : Nat) (t : Timer) (q' : Reg16) : (s.setTimer k t).unset16 q' = s.unset16 q' := rfl
@[simp] theorem setTimer_sreg (s : State) (k : Nat) (t : Timer) (q' : SReg) : (s.setTimer k t).sreg q' = s.sreg q' := rfl
@[simp] theorem setTimer_flag (s : State) (k : Nat) (t : Timer) (q' : Flag) : (s.setTimer k t).flag q' = s.flag q' := rfl
@[simp] theorem setTimer_locate (s : State) (k : Nat) (t : Timer) (a' : Phys) : (s.setTimer k t).locate a' = s.locate a' := rfl
@[simp] theorem setTimer_readPlace (s : State) (k : Nat) (t : Timer) (p' : Place) : (s.setTimer k t).readPlace p' = s.readPlace p' := rfl
@[simp] theorem setTimer_busRead8 (s : State) (k : Nat) (t : Timer) (a' : Phys) : (s.setTimer k t).busRead8 a' = s.busRead8 a' := rfl
@[simp] theorem setTimer_mem8 (s : State) (k : Nat) (t : Timer) (sg' off' : Word) : (s.setTimer k t).mem8 sg' off' = s.mem8 sg' off' := rfl
@[simp] theorem setTimer_mem16 (s : State) (k : Nat) (t : Timer) (sg' off' : Word) : (s.setTimer k t).mem16 sg' off' = s.mem16 sg' off' := rfl
@[simp] theorem setTimer_unsetPlace (s : State) (k : Nat) (t : Timer) (p' : Place) : (s.setTimer k t).unsetPlace p' = s.unsetPlace p' := rfl
@[simp] theorem setTimer_unsetMem8 (s : State) (k : Nat) (t : Timer) (sg' off' : Word) : (s.setTimer k t).unsetMem8 sg' off' = s.unsetMem8 sg' off' := rfl
@[simp] theorem setTimer_unsetMem16 (s : State) (k : Nat) (t : Timer) (sg' off' : Word) : (s.setTimer k t).unsetMem16 sg' off' = s.unsetMem16 sg' off' := rfl
@[simp] theorem setTimer_eaOff (s : State) (k : Nat) (t : Timer) (m' : Mem) : (s.setTimer k t).eaOff m' = s.eaOff m' := rfl
@[simp] theorem setTimer_eaSeg (s : State) (k : Nat) (t : Timer) (m' : Mem) : (s.setTimer k t).eaSeg m' = s.eaSeg m' := rfl
@[simp] theorem setTimer_segOr (s : State) (k : Nat) (t : Timer) (d' : SReg) : (s.setTimer k t).segOr d' = s.segOr d' := rfl
@[simp] theorem setTimer_loc8 (s : State) (k : Nat) (t : Timer) (e' : Rm8) : (s.setTimer k t).loc8 e' = s.loc8 e' := rfl
@[simp] theorem setTimer_loc16 (s : State) (k : Nat) (t : Timer) (e' : Rm16) : (s.setTimer k t).loc16 e' = s.loc16 e' := rfl
@[simp] theorem setTimer_read8 (s : State) (k : Nat) (t : Timer) (l' : Loc8) : (s.setTimer k t).read8 l' = s.read8 l' := rfl
@[simp] theorem setTimer_read16 (s : State) (k : Nat) (t : Timer) (l' : Loc16) : (s.setTimer k t).read16 l' = s.read16 l' := rfl
@[simp] theorem setTimer_rm8 (s : State) (k : Nat) (t : Timer) (e' : Rm8) : (s.setTimer k t).rm8 e' = s.rm8 e' := rfl
@[simp] theorem setTimer_rm16 (s : State) (k : Nat) (t : Timer) (e' : Rm16) : (s.setTimer k t).rm16 e' = s.rm16 e' := rfl
@[simp] theorem setTimer_ipNext (s : State) (k : Nat) (t : Timer) (i' : Instr) : (s.setTimer k t).ipNext i' = s.ipNext i' := rfl
@[simp] theorem setTimer_delta (s : State) (k : Nat) (t : Timer) (n' : Word) : (s.setTimer k t).delta n' = s.delta n' := rfl
@[simp] theorem setTimer_top (s : State) (k : Nat) (t : Timer) : (s.setTimer k t).top = s.top := rfl
@[simp] theorem setTimer_portOwner (s : State) (k : Nat) (t : Timer) (p' : Word) : (s.setTimer k t).portOwner p' = s.portOwner p' := rfl
@[simp] theorem setTimer_highestPending (s : State) (k : Nat) (t : Timer) : (s.setTimer k t).highestPending = s.highestPending := rfl
@[simp] theorem setTimer_shiftCount (s : State) (k : Nat) (t : Timer) (c' : Byte) : (s.setTimer k t).shiftCount c' = s.shiftCount c' := rfl
@[simp] theorem setTimer_channel (s : State) (k : Nat) (t : Timer) (j' : Nat) : (s.setTimer k t).channel j' = s.channel j' := rfl

@[simp] theorem setPpu_regs (s : State) (p : Ppu) : (s.setPpu p).regs = s.regs := rfl
@[simp] theorem setPpu_unset (s : State) (p : Ppu) : (s.setPpu p).unset = s.unset := rfl
@[simp] theorem setPpu_segs (s : State) (p : Ppu) : (s.setPpu p).segs = s.segs := rfl
@[simp] theorem setPpu_ip (s : State) (p : Ppu) : (s.setPpu p).ip = s.ip := rfl
@[simp] theorem setPpu_flags (s : State) (p : Ppu) : (s.setPpu p).flags = s.flags := rfl
@[simp] theorem setPpu_halted (s : State) (p : Ppu) : (s.setPpu p).halted = s.halted := rfl
@[simp] theorem setPpu_shadow (s : State) (p : Ppu) : (s.setPpu p).shadow = s.shadow := rfl
@[simp] theorem setPpu_diag (s : State) (p : Ppu) : (s.setPpu p).diag = s.diag := rfl
@[simp] theorem setPpu_faults (s : State) (p : Ppu) : (s.setPpu p).faults = s.faults := rfl
@[simp] theorem setPpu_ic (s : State) (p : Ppu) : (s.setPpu p).ic = s.ic := rfl
@[simp] theorem setPpu_timers (s : State) (p : Ppu) : (s.setPpu p).timers = s.timers := rfl
@[simp] theorem setPpu_ppu (s : State) (p : Ppu) : (s.setPpu p).ppu = p := rfl
@[simp] theorem setPpu_apu (s : State) (p : Ppu) : (s.setPpu p).apu = s.apu := rfl
@[simp] theorem setPpu_banks (s : State) (p : Ppu) : (s.setPpu p).banks = s.banks := rfl
@[simp] theorem setPpu_ram (s : State) (p : Ppu) : (s.setPpu p).ram = s.ram := rfl
@[simp] theorem setPpu_rom (s : State) (p : Ppu) : (s.setPpu p).rom = s.rom := rfl
@[simp] theorem setPpu_save (s : State) (p : Ppu) : (s.setPpu p).save = s.save := rfl
@[simp] theorem setPpu_rem (s : State) (p : Ppu) : (s.setPpu p).rem = s.rem := rfl
@[simp] theorem setPpu_elapsed (s : State) (p : Ppu) : (s.setPpu p).elapsed = s.elapsed := rfl
@[simp] theorem setPpu_mode (s : State) (p : Ppu) : (s.setPpu p).mode = s.mode := rfl
@[simp] theorem setPpu_samples (s : State) (p : Ppu) : (s.setPpu p).samples = s.samples := rfl
@[simp] theorem setPpu_raised (s : State) (p : Ppu) : (s.setPpu p).raised = s.raised := rfl
@[simp] theorem setPpu_trace (s : State) (p : Ppu) : (s.setPpu p).trace = s.trace := rfl
@[simp] theorem setPpu_input (s : State) (p : Ppu) : (s.setPpu p).input = s.input := rfl
@[simp] theorem setPpu_cfg (s : State) (p : Ppu) : (s.setPpu p).cfg = s.cfg := rfl
@[simp] theorem setPpu_ext (s : State) (p : Ppu) : (s.setPpu p).ext = s.ext := rfl
@[simp] theorem setPpu_cur (s : State) (p : Ppu) : (s.setPpu p).cur = s.cur := rfl
@[simp] theorem setPpu_reg16 (s : State) (p : Ppu) (q' : Reg16) : (s.setPpu p).reg16 q' = s.reg16 q' := rfl
@[simp] theorem setPpu_reg8 (s : State) (p : Ppu) (q' : Reg8) : (s.setPpu p).reg8 q' = s.reg8 q' := rfl
@[simp] theorem setPpu_unset8 (s : State) (p : Ppu) (q' : Reg8) : (s.setPpu p).unset8 q' = s.unset8 q' := rfl
@[simp] theorem setPpu_unset16 (s : State) (p : Ppu) (q' : Reg16) : (s.setPpu p).unset16 q' = s.unset16 q' := rfl
@[simp] theorem setPpu_sreg (s : State) (p : Ppu) (q' : SReg) : (s.setPpu p).sreg q' = s.sreg q' := rfl
@[simp] theorem setPpu_flag (s : State) (p : Ppu) (q' : Flag) : (s.setPpu p).flag q' = s.flag q' := rfl
@[simp] theorem setPpu_locate (s : State) (p : Ppu) (a' : Phys) : (s.setPpu p).locate a' = s.locate a' := rfl
@[simp] theorem setPpu_readPlace (s : State) (p : Ppu) (p' : Place) : (s.setPpu p).readPlace p' = s.readPlace p' := rfl
@[simp] theorem setPpu_busRead8 (s : State) (p : Ppu) (a' : Phys) : (s.setPpu p).busRead8 a' = s.busRead8 a' := rfl
@[simp] theorem setPpu_mem8 (s : State) (p : Ppu) (sg' off' : Word) : (s.setPpu p).mem8 sg' off' = s.mem8 sg' off' := rfl
@[simp] theorem setPpu_mem16 (s : State) (p : Ppu) (sg' off' : Word) : (s.setPpu p).mem16 sg' off' = s.mem16 sg' off' := rfl
@[simp] theorem setPpu_unsetPlace (s : State) (p : Ppu) (p' : Place) : (s.setPpu p).unsetPlace p' = s.unsetPlace p' := rfl
@[simp] theorem setPpu_unsetMem8 (s : State) (p : Ppu) (sg' off' : Word) : (s.setPpu p).unsetMem8 sg' off' = s.unsetMem8 sg' off' := rfl
@[simp] theorem setPpu_unsetMem16 (s : State) (p : Ppu) (sg' off' : Word) : (s.setPpu p).unsetMem16 sg' off' = s.unsetMem16 sg' off' := rfl
@[simp] theorem setPpu_eaOff (s : State) (p : Ppu) (m' : Mem) : (s.setPpu p).eaOff m' = s.eaOff m' := rfl
@[simp] theorem setPpu_eaSeg (s : State) (p : Ppu) (m' : Mem) : (s.setPpu p).eaSeg m' = s.eaSeg m' := rfl
@[simp] theorem setPpu_segOr (s : State) (p : Ppu) (d' : SReg) : (s.setPpu p).segOr d' = s.segOr d' := rfl
@[simp] theorem setPpu_loc8 (s : State) (p : Ppu) (e' : Rm8) : (s.setPpu p).loc8 e' = s.loc8 e' := rfl
@[simp] theorem setPpu_loc16 (s : State) (p : Ppu) (e' : Rm16) : (s.setPpu p).loc16 e' = s.loc16 e' := rfl
@[simp] theorem setPpu_read8 (s : State) (p : Ppu) (l' : Loc8) : (s.setPpu p).read8 l' = s.read8 l' := rfl
@[simp] theorem setPpu_read16 (s : State) (p : Ppu) (l' : Loc16) : (s.setPpu p).read16 l' = s.read16 l' := rfl
@[simp] theorem setPpu_rm8 (s : State) (p : Ppu) (e' : Rm8) : (s.setPpu p).rm8 e' = s.rm8 e' := rfl
@[simp] theorem setPpu_rm16 (s : State) (p : Ppu) (e' : Rm16) : (s.setPpu p).rm16 e' = s.rm16 e' := rfl
@[simp] theorem setPpu_ipNext (s : State) (p : Ppu) (i' : Instr) : (s.setPpu p).ipNext i' = s.ipNext i' := rfl
@[simp] theorem setPpu_delta (s : State) (p : Ppu) (n' : Word) : (s.setPpu p).delta n' = s.delta n' := rfl
@[simp] theorem setPpu_top (s : State) (p : Ppu) : (s.setPpu p).top = s.top := rfl
@[simp] theorem setPpu_portOwner (s : State) (p : Ppu) (p' : Word) : (s.setPpu p).portOwner p' = s.portOwner p' := rfl
@[simp] theorem setPpu_highestPending (s : State) (p : Ppu) : (s.setPpu p).highestPending = s.highestPending := rfl
@[simp] theorem setPpu_shiftCount (s : State) (p : Ppu) (c' : Byte) : (s.setPpu p).shiftCount c' = s.shiftCount c' := rfl
@[simp] theorem setPpu_timer (s : State) (p : Ppu) (j' : Nat) : (s.setPpu p).timer j' = s.timer j' := rfl
@[simp] theorem setPpu_channel (s : State) (p : Ppu) (j' : Nat) : (s.setPpu p).channel j' = s.channel j' := rfl

@[simp] theorem setChannel_regs (s : State) (k : Nat) (c : Channel) : (s.setChannel k c).regs = s.regs := rfl
@[simp] theorem setChannel_unset (s : State) (k : Nat) (c : Channel) : (s.setChannel k c).unset = s.unset := rfl
@[simp] theorem setChannel_segs (s : State) (k : Nat) (c : Channel) : (s.setChannel k c).segs = s.segs := rfl
@[simp] theorem setChannel_ip (s : State) (k : Nat) (c : Channel) : (s.setChannel k c).ip = s.ip := rfl
@[simp] theorem setChannel_flags (s : State) (k : Nat) (c : Channel) : (s.setChannel k c).flags = s.flags := rfl
@[simp] theorem setChannel_halted (s : State) (k : Nat) (c : Channel) : (s.setChannel k c).halted = s.halted := rfl
@[simp] theorem setChannel_shadow (s : State) (k : Nat) (c : Channel) : (s.setChannel k c).shadow = s.shadow := rfl
@[simp] theorem setChannel_diag (s : State) (k : Nat) (c : Channel) : (s.setChannel k c).diag = s.diag := rfl
@[simp] theorem setChannel_faults (s : State) (k : Nat) (c : Channel) : (s.setChannel k c).faults = s.faults := rfl
@[simp] theorem setChannel_ic (s : State) (k : Nat) (c : Channel) : (s.setChannel k c).ic = s.ic := rfl
@[simp] theorem setChannel_timers (s : State) (k : Nat) (c : Channel) : (s.setChannel k c).timers = s.timers := rfl
@[simp] theorem setChannel_ppu (s : State) (k : Nat) (c : Channel) : (s.setChannel k c).ppu = s.ppu := rfl
@[simp] theorem setChannel_apu (s : State) (k : Nat) (c : Channel) : (s.setChannel k c).apu = s.apu.set k c := rfl
@[simp] theorem setChannel_banks (s : State) (k : Nat) (c : Channel) : (s.setChannel k c).banks = s.banks := rfl
@[simp] theorem setChannel_ram (s : State) (k : Nat) (c : Channel) : (s.setChannel k c).ram = s.ram := rfl
@[simp] theorem setChannel_rom (s : State) (k : Nat) (c : Channel) : (s.setChannel k c).rom = s.rom := rfl
@[simp] theorem setChannel_save (s : State) (k : Nat) (c : Channel) : (s.setChannel k c).save = s.save := rfl
@[simp] theorem setChannel_rem (s : State) (k : Nat) (c : Channel) : (s.setChannel k c).rem = s.rem := rfl
@[simp] theorem setChannel_elapsed (s : State) (k : Nat) (c : Channel) : (s.setChannel k c).elapsed = s.elapsed := rfl
@[simp] theorem setChannel_mode (s : State) (k : Nat) (c : Channel) : (s.setChannel k c).mode = s.mode := rfl
@[simp] theorem setChannel_samples (s : State) (k : Nat) (c : Channel) : (s.setChannel k c).samples = s.samples := rfl
@[simp] theorem setChannel_raised (s : State) (k : Nat) (c : Channel) : (s.setChannel k c).raised = s.raised := rfl
@[simp] theorem setChannel_trace (s : State) (k : Nat) (c : Channel) : (s.setChannel k c).trace = s.trace := rfl
@[simp] theorem setChannel_input (s : State) (k : Nat) (c : Channel) : (s.setChannel k c).input = s.input := rfl
@[simp] theorem setChannel_cfg (s : State) (k : Nat) (c : Channel) : (s.setChannel k c).cfg = s.cfg := rfl
@[simp] theorem setChannel_ext (s : State) (k : Nat) (c : Channel) : (s.setChannel k c).ext = s.ext := rfl
@[simp] theorem setChannel_cur (s : State) (k : Nat) (c : Channel) : (s.setChannel k c).cur = s.cur := rfl
@[simp] theorem setChannel_reg16 (s : State) (k : Nat) (c : Channel) (q' : Reg16) : (s.setChannel k c).reg16 q' = s.reg16 q' := rfl
@[simp] theorem setChannel_reg8 (s : State) (k : Nat) (c : Channel) (q' : Reg8) : (s.setChannel k c).reg8 q' = s.reg8 q' := rfl
@[simp] theorem setChannel_unset8 (s : State) (k : Nat) (c : Channel) (q' : Reg8) : (s.setChannel k c).unset8 q' = s.unset8 q' := rfl
@[simp] theorem setChannel_unset16 (s : State) (k : Nat) (c : Channel) (q' : Reg16) : (s.setChannel k c).unset16 q' = s.unset16 q' := rfl
@[simp] theorem setChannel_sreg (s : State) (k : Nat) (c : Channel) (q' : SReg) : (s.setChannel k c).sreg q' = s.sreg q' := rfl
@[simp] theorem setChannel_flag (s : State) (k : Nat) (c : Channel) (q' : Flag) : (s.setChannel k c).flag q' = s.flag q' := rfl
@[simp] theorem setChannel_locate (s : State) (k : Nat) (c : Channel) (a' : Phys) : (s.setChannel k c).locate a' = s.locate a' := rfl
@[simp] theorem setChannel_readPlace (s : State) (k : Nat) (c : Channel) (p' : Place) : (s.setChannel k c).readPlace p' = s.readPlace p' := rfl
@[simp] theorem setChannel_busRead8 (s : State) (k : Nat) (c : Channel) (a' : Phys) : (s.setChannel k c).busRead8 a' = s.busRead8 a' := rfl
@[simp] theorem setChannel_mem8 (s : State) (k : Nat) (c : Channel) (sg' off' : Word) : (s.setChannel k c).mem8 sg' off' = s.mem8 sg' off' := rfl
@[simp] theorem setChannel_mem16 (s : State) (k : Nat) (c : Channel) (sg' off' : Word) : (s.setChannel k c).mem16 sg' off' = s.mem16 sg' off' := rfl
@[simp] theorem setChannel_unsetPlace (s : State) (k : Nat) (c : Channel) (p' : Place) : (s.setChannel k c).unsetPlace p' = s.unsetPlace p' := rfl
@[simp] theorem setChannel_unsetMem8 (s : State) (k : Nat) (c : Channel) (sg' off' : Word) : (s.setChannel k c).unsetMem8 sg' off' = s.unsetMem8 sg' off' := rfl
@[simp] theorem setChannel_unsetMem16 (s : State) (k : Nat) (c : Channel) (sg' off' : Word) : (s.setChannel k c).unsetMem16 sg' off' = s.unsetMem16 sg' off' := rfl
@[simp] theorem setChannel_eaOff (s : State) (k : Nat) (c : Channel) (m' : Mem) : (s.setChannel k c).eaOff m' = s.eaOff m' := rfl
@[simp] theorem setChannel_eaSeg (s : State) (k : Nat) (c : Channel) (m' : Mem) : (s.setChannel k c).eaSeg m' = s.eaSeg m' := rfl
@[simp] theorem setChannel_segOr (s : State) (k : Nat) (c : Channel) (d' : SReg) : (s.setChannel k c).segOr d' = s.segOr d' := rfl
@[simp] theorem setChannel_loc8 (s : State) (k : Nat) (c : Channel) (e' : Rm8) : (s.setChannel k c).loc8 e' = s.loc8 e' := rfl
@[simp] theorem setChannel_loc16 (s : State) (k : Nat) (c : Channel) (e' : Rm16) : (s.setChannel k c).loc16 e' = s.loc16 e' := rfl
@[simp] theorem setChannel_read8 (s : State) (k : Nat) (c : Channel) (l' : Loc8) : (s.setChannel k c).read8 l' = s.read8 l' := rfl
@[simp] theorem setChannel_read16 (s : State) (k : Nat) (c : Channel) (l' : Loc16) : (s.setChannel k c).read16 l' = s.read16 l' := rfl
@[simp] theorem setChannel_rm8 (s : State) (k : Nat) (c : Channel) (e' : Rm8) : (s.setChannel k c).rm8 e' = s.rm8 e' := rfl
@[simp] theorem setChannel_rm16 (s : State) (k : Nat) (c : Channel) (e' : Rm16) : (s.setChannel k c).rm16 e' = s.rm16 e' := rfl
@[simp] theorem setChannel_ipNext (s : State) (k : Nat) (c : Channel) (i' : Instr) : (s.setChannel k c).ipNext i' = s.ipNext i' := rfl
@[simp] theorem setChannel_delta (s : State) (k : Nat) (c : Channel) (n' : Word) : (s.setChannel k c).delta n' = s.delta n' := rfl
@[simp] theorem setChannel_top (s : State) (k : Nat) (c : Channel) : (s.setChannel k c).top = s.top := rfl
@[simp] theorem setChannel_portOwner (s : State) (k : Nat) (c : Channel) (p' : Word) : (s.setChannel k c).portOwner p' = s.portOwner p' := rfl
@[simp] theorem setChannel_highestPending (s : State) (k : Nat) (c : Channel) : (s.setChannel k c).highestPending = s.highestPending := rfl
@[simp] theorem setChannel_shiftCount (s : State) (k : Nat) (c : Channel) (c' : Byte) : (s.setChannel k c).shiftCount c' = s.shiftCount c' := rfl
@[simp] theorem setChannel_timer (s : State) (k : Nat) (c : Channel) (j' : Nat) : (s.setChannel k c).timer j' = s.timer j' := rfl

end Sys2Proof.Machine
end

