-- ==== Sys2Proof/Laws/Memory.lean ====
section
/-! SUPPORT. Memory: reading after a write, and the canonical form; storage bytes and the bus. -/

namespace Sys2Proof.Machine

/-! ## Cell lists -/

theorem find?_set_self (m : Memory) (a : Nat) (b : Byte) : Memory.find? (Memory.set m a b) a = some b := by
  induction m with
  | nil => simp [Memory.set, Memory.find?]
  | cons c m ih =>
    simp only [Memory.set]
    split
    · simp [Memory.find?]
    · split
      · simp [Memory.find?]
      · rename_i h
        simp [Memory.find?, Ne.symm h, ih]

theorem find?_set_ne (m : Memory) {a k : Nat} (b : Byte) (h : k ≠ a) :
    Memory.find? (Memory.set m a b) k = Memory.find? m k := by
  induction m with
  | nil => simp [Memory.set, Memory.find?, Ne.symm h]
  | cons c m ih =>
    simp only [Memory.set]
    split
    · simp [Memory.find?, Ne.symm h]
    · split
      · rename_i h1
        simp [Memory.find?, Ne.symm h, ← h1]
      · simp [Memory.find?, ih]

theorem find?_erase_self (m : Memory) (a : Nat) : Memory.find? (Memory.erase m a) a = none := by
  induction m with
  | nil => rfl
  | cons c m ih =>
    by_cases h : c.1 = a
    · simpa [Memory.erase, h] using ih
    · have h2 : Memory.find? (List.filter (fun c => c.1 != a) m) a = none := ih
      simp [Memory.erase, h, Memory.find?, h2]

theorem find?_erase_ne (m : Memory) {a k : Nat} (h : k ≠ a) :
    Memory.find? (Memory.erase m a) k = Memory.find? m k := by
  induction m with
  | nil => rfl
  | cons c m ih =>
    have h2 : Memory.find? (List.filter (fun c => c.1 != a) m) k = Memory.find? m k := ih
    by_cases h1 : c.1 = a
    · simp [Memory.erase, h1, Memory.find?, Ne.symm h, h2]
    · simp [Memory.erase, h1, Memory.find?, h2]

/-- A byte written is read back, by way of what an unlisted cell holds where it is unlisted. -/
theorem find?_put_self (unl : Option Byte) (m : Memory) (a : Nat) (b d : Byte) (h : ∀ u, unl = some u → d = u) :
    (Memory.find? (Memory.put unl m a b) a).getD d = b := by
  unfold Memory.put
  split
  · rename_i h1
    simp [find?_erase_self, h b h1]
  · simp [find?_set_self]

/-- A write leaves every other cell alone. -/
theorem find?_put_ne (unl : Option Byte) (m : Memory) {a k : Nat} (b : Byte) (h : k ≠ a) :
    Memory.find? (Memory.put unl m a b) k = Memory.find? m k := by
  unfold Memory.put
  split
  · exact find?_erase_ne m h
  · exact find?_set_ne m b h

/-! ## The canonical form -/

theorem rises_mono {lo lo' : Nat} {m : Memory} (h : Memory.rises lo m = true) (hl : lo' ≤ lo) :
    Memory.rises lo' m = true := by
  cases m with
  | nil => rfl
  | cons c m =>
    simp only [Memory.rises, Bool.and_eq_true, decide_eq_true_eq] at h ⊢
    exact ⟨by omega, h.2⟩

theorem rises_erase {lo : Nat} {m : Memory} (a : Nat) (h : Memory.rises lo m = true) :
    Memory.rises lo (Memory.erase m a) = true := by
  induction m generalizing lo with
  | nil => rfl
  | cons c m ih =>
    simp only [Memory.rises, Bool.and_eq_true, decide_eq_true_eq] at h
    have h2 : ∀ lo, Memory.rises lo m = true → Memory.rises lo (List.filter (fun c => c.1 != a) m) = true :=
      fun lo hl => ih hl
    by_cases h1 : c.1 = a
    · simpa [Memory.erase, h1] using h2 lo (rises_mono h.2 (by omega))
    · simp [Memory.erase, h1, Memory.rises, h.1, h2 _ h.2]

theorem rises_set {lo : Nat} {m : Memory} {a : Nat} (b : Byte) (ha : lo ≤ a) (h : Memory.rises lo m = true) :
    Memory.rises lo (Memory.set m a b) = true := by
  induction m generalizing lo with
  | nil => simp [Memory.set, Memory.rises, ha]
  | cons c m ih =>
    simp only [Memory.rises, Bool.and_eq_true, decide_eq_true_eq] at h
    simp only [Memory.set]
    split
    · rename_i h1
      simp only [Memory.rises, Bool.and_eq_true, decide_eq_true_eq]
      exact ⟨ha, h1, h.2⟩
    · split
      · rename_i h1
        subst h1
        simp only [Memory.rises, Bool.and_eq_true, decide_eq_true_eq]
        exact ⟨ha, h.2⟩
      · simp only [Memory.rises, Bool.and_eq_true, decide_eq_true_eq]
        exact ⟨h.1, ih (by omega) h.2⟩

theorem all_set {p : Host.Cell → Bool} {m : Memory} {a : Nat} {b : Byte} (h : m.all p = true) (hn : p (a, b) = true) :
    (Memory.set m a b).all p = true := by
  induction m with
  | nil => simp [Memory.set, hn]
  | cons c m ih =>
    simp only [List.all_cons, Bool.and_eq_true] at h
    simp only [Memory.set]
    split
    · simp [hn, h.1, h.2]
    · split
      · simp [hn, h.2]
      · simp [h.1, ih h.2]

/-- Every write keeps the canonical form. -/
theorem wf_put {unl : Option Byte} {size : Nat} {m : Memory} {a : Nat} (b : Byte) (ha : a < size)
    (h : Memory.wf unl size m = true) : Memory.wf unl size (Memory.put unl m a b) = true := by
  simp only [Memory.wf, Bool.and_eq_true] at h ⊢
  unfold Memory.put
  split
  · exact ⟨rises_erase a h.1, by
      simp only [List.all_eq_true] at h ⊢
      intro c hc
      exact h.2 c (List.mem_filter.mp hc).1⟩
  · rename_i h1
    exact ⟨rises_set b (by omega) h.1, all_set h.2 (by simp [ha, h1])⟩

theorem wf_nil (unl : Option Byte) (size : Nat) : Memory.wf unl size [] = true := rfl

/-- Equal memories are equal data: two memories in canonical form that read alike are equal. -/
theorem find?_eq_none_of_rises {lo : Nat} {m : Memory} (h : Memory.rises lo m = true) {k : Nat} (hk : k < lo) :
    Memory.find? m k = none := by
  induction m generalizing lo with
  | nil => rfl
  | cons c m ih =>
    simp only [Memory.rises, Bool.and_eq_true, decide_eq_true_eq] at h
    have : c.1 ≠ k := by omega
    simp [Memory.find?, this, ih h.2 (by omega)]

/-- The memory after reset has the canonical form. -/
theorem reset_ram_wf : Memory.wf (ramUnlisted State.reset.cfg) State.reset.cfg.ramSize State.reset.ram = true := rfl

/-- The save memory after reset has the canonical form. -/
theorem reset_save_wf : Memory.wf (some 0#8) State.reset.save.size State.reset.save.cells = true := rfl

/-! ## Storage bytes -/

/-- What a read gives after a write (R112, R115, R116, R121, R124). -/
theorem readPlace_writePlace (s : State) (p q : Place) (b : Byte) :
    (s.writePlace p b).readPlace q = if q = p ∧ Place.writable p = true then b else s.readPlace q := by
  cases p with
  | ram i =>
    cases q with
    | ram j =>
      by_cases h : j = i
      · subst h
        have := find?_put_self (ramUnlisted s.cfg) s.ram j b (ramDefault s.cfg j)
          (fun u hu => by simp [ramDefault, hu])
        simpa [State.writePlace, State.readPlace, Place.writable] using this
      · simp [State.writePlace, State.readPlace, h, find?_put_ne _ _ _ h]
    | save j => simp [State.writePlace, State.readPlace]
    | rom j => simp [State.writePlace, State.readPlace]
    | openBus => simp [State.writePlace, State.readPlace]
  | save i =>
    cases q with
    | ram j => simp [State.writePlace, State.readPlace]
    | save j =>
      by_cases h : j = i
      · subst h
        have := find?_put_self (some 0#8) s.save.cells j b 0#8 (fun u hu => by simpa using hu)
        simpa [State.writePlace, State.readPlace, Place.writable] using this
      · simp [State.writePlace, State.readPlace, h, find?_put_ne _ _ _ h]
    | rom j => simp [State.writePlace, State.readPlace]
    | openBus => simp [State.writePlace, State.readPlace]
  | rom o => simp [State.writePlace, Place.writable]
  | openBus => simp [State.writePlace, Place.writable]

end Sys2Proof.Machine
end

