-- ==== Sys2Proof/Laws/Ops.lean ====
section
/-! SUPPORT. Registers after a register write; what the memory writes and the stack operations leave in each field
and in each reading of the state; memory after a memory write. -/

namespace Sys2Proof.Machine

/-! ## Registers -/

@[simp] theorem regTable_get_set {α : Type} (t : RegTable α) (r q : Reg16) (v : α) :
    (t.set r v).get q = if q = r then v else t.get q := by
  cases r <;> cases q <;> rfl

theorem word_append_getLsbD (a b : Byte) (i : Nat) :
    (a ++ b : Word).getLsbD i = if i < 8 then b.getLsbD i else a.getLsbD (i - 8) :=
  BitVec.getLsbD_append

@[simp] theorem loByte_append (a b : Byte) : loByte (a ++ b) = b := by
  apply BitVec.eq_of_getLsbD_eq
  intro i hi
  simp [loByte, word_append_getLsbD, hi]

@[simp] theorem hiByte_append (a b : Byte) : hiByte (a ++ b) = a := by
  apply BitVec.eq_of_getLsbD_eq
  intro i hi
  simp [hiByte, word_append_getLsbD, hi]

@[simp] theorem hi_append_lo (w : Word) : hiByte w ++ loByte w = w := by
  apply BitVec.eq_of_getLsbD_eq
  intro i hi
  rw [word_append_getLsbD]
  by_cases h : i < 8
  · simp [loByte, h]
  · simp [hiByte, h, show 8 + (i - 8) = i by omega, show i - 8 < 8 by omega]

@[simp] theorem setReg16_reg16 (s : State) (r q : Reg16) (v : Word) :
    (s.setReg16 r v).reg16 q = if q = r then v else s.reg16 q := by
  simp [State.setReg16, State.reg16]

@[simp] theorem setReg16_reg8 (s : State) (r : Reg16) (q : Reg8) (v : Word) :
    (s.setReg16 r v).reg8 q =
      if Reg8.parent q = r then (if Reg8.isHigh q then hiByte v else loByte v) else s.reg8 q := by
  simp only [State.reg8, setReg16_reg16]
  split <;> split <;> simp_all

/-- A write of an 8-bit register changes only its half of its 16-bit register (R32). -/
@[simp] theorem setReg8_reg16 (s : State) (r : Reg8) (q : Reg16) (v : Byte) :
    (s.setReg8 r v).reg16 q = if q = Reg8.parent r then putHalf (Reg8.isHigh r) (s.reg16 q) v else s.reg16 q := by
  simp only [State.setReg8, State.reg16, regTable_get_set]
  split <;> simp_all

@[simp] theorem setReg8_reg8 (s : State) (r q : Reg8) (v : Byte) :
    (s.setReg8 r v).reg8 q = if q = r then v else s.reg8 q := by
  cases r <;> cases q <;> simp [State.reg8, Reg8.isHigh, Reg8.parent, putHalf]

@[simp] theorem setReg16_unsetMark (s : State) (r q : Reg16) (v : Word) :
    (s.setReg16 r v).unset.get q = if q = r then ⟨false, false⟩ else s.unset.get q := by
  simp [State.setReg16]

@[simp] theorem setReg8_unsetMark (s : State) (r : Reg8) (q : Reg16) (v : Byte) :
    (s.setReg8 r v).unset.get q =
      if q = Reg8.parent r then clearHalf (Reg8.isHigh r) (s.unset.get q) else s.unset.get q := by
  simp only [State.setReg8, regTable_get_set]
  split <;> simp_all

@[simp] theorem setSReg_sreg (s : State) (r q : SReg) (v : Word) :
    (s.setSReg r v).sreg q = if q = r then v else s.sreg q := by
  cases r <;> cases q <;> rfl

@[simp] theorem setFlags_flag (s : State) (fl : Word) (f : Flag) : (s.setFlags fl).flag f = flagGet fl f := rfl

theorem unsetRegs_congr {s t : State} (h : t.unset = s.unset) (l : List Reg16) : t.unsetRegs l = s.unsetRegs l := by
  induction l with
  | nil => rfl
  | cons r l ih =>
    simp only [State.unsetRegs, ih]
    simp only [State.unset16, State.unset8, h]

/-- The entries of an effective address depend on the unset marks alone. -/
theorem unsetEa_congr {s t : State} (h : t.unset = s.unset) (m : Mem) : t.unsetEa m = s.unsetEa m := by
  cases m with
  | direct off => rfl
  | based b d => exact unsetRegs_congr h _

@[simp] theorem record_unsetEa (s : State) (es : List FaultRecord) (m : Mem) : (s.record es).unsetEa m = s.unsetEa m :=
  unsetEa_congr (record_unset s es) m

@[simp] theorem record_nil (s : State) : s.record [] = s := by simp [State.record]

@[simp] theorem record_record (s : State) (es fs : List FaultRecord) : (s.record es).record fs = s.record (es ++ fs) := by
  simp [State.record]

/-! ## Memory writes -/

@[simp] theorem writePlace_regs (s : State) (p : Place) (b : Byte) : (s.writePlace p b).regs = s.regs := by cases p <;> rfl
@[simp] theorem writePlace_unset (s : State) (p : Place) (b : Byte) : (s.writePlace p b).unset = s.unset := by cases p <;> rfl
@[simp] theorem writePlace_segs (s : State) (p : Place) (b : Byte) : (s.writePlace p b).segs = s.segs := by cases p <;> rfl
@[simp] theorem writePlace_ip (s : State) (p : Place) (b : Byte) : (s.writePlace p b).ip = s.ip := by cases p <;> rfl
@[simp] theorem writePlace_flags (s : State) (p : Place) (b : Byte) : (s.writePlace p b).flags = s.flags := by cases p <;> rfl
@[simp] theorem writePlace_halted (s : State) (p : Place) (b : Byte) : (s.writePlace p b).halted = s.halted := by cases p <;> rfl
@[simp] theorem writePlace_shadow (s : State) (p : Place) (b : Byte) : (s.writePlace p b).shadow = s.shadow := by cases p <;> rfl
@[simp] theorem writePlace_diag (s : State) (p : Place) (b : Byte) : (s.writePlace p b).diag = s.diag := by cases p <;> rfl
@[simp] theorem writePlace_faults (s : State) (p : Place) (b : Byte) : (s.writePlace p b).faults = s.faults := by cases p <;> rfl
@[simp] theorem writePlace_ic (s : State) (p : Place) (b : Byte) : (s.writePlace p b).ic = s.ic := by cases p <;> rfl
@[simp] theorem writePlace_timers (s : State) (p : Place) (b : Byte) : (s.writePlace p b).timers = s.timers := by cases p <;> rfl
@[simp] theorem writePlace_ppu (s : State) (p : Place) (b : Byte) : (s.writePlace p b).ppu = s.ppu := by cases p <;> rfl
@[simp] theorem writePlace_apu (s : State) (p : Place) (b : Byte) : (s.writePlace p b).apu = s.apu := by cases p <;> rfl
@[simp] theorem writePlace_banks (s : State) (p : Place) (b : Byte) : (s.writePlace p b).banks = s.banks := by cases p <;> rfl
@[simp] theorem writePlace_rom (s : State) (p : Place) (b : Byte) : (s.writePlace p b).rom = s.rom := by cases p <;> rfl
@[simp] theorem writePlace_rem (s : State) (p : Place) (b : Byte) : (s.writePlace p b).rem = s.rem := by cases p <;> rfl
@[simp] theorem writePlace_elapsed (s : State) (p : Place) (b : Byte) : (s.writePlace p b).elapsed = s.elapsed := by cases p <;> rfl
@[simp] theorem writePlace_mode (s : State) (p : Place) (b : Byte) : (s.writePlace p b).mode = s.mode := by cases p <;> rfl
@[simp] theorem writePlace_samples (s : State) (p : Place) (b : Byte) : (s.writePlace p b).samples = s.samples := by cases p <;> rfl
@[simp] theorem writePlace_raised (s : State) (p : Place) (b : Byte) : (s.writePlace p b).raised = s.raised := by cases p <;> rfl
@[simp] theorem writePlace_trace (s : State) (p : Place) (b : Byte) : (s.writePlace p b).trace = s.trace := by cases p <;> rfl
@[simp] theorem writePlace_input (s : State) (p : Place) (b : Byte) : (s.writePlace p b).input = s.input := by cases p <;> rfl
@[simp] theorem writePlace_cfg (s : State) (p : Place) (b : Byte) : (s.writePlace p b).cfg = s.cfg := by cases p <;> rfl
@[simp] theorem writePlace_ext (s : State) (p : Place) (b : Byte) : (s.writePlace p b).ext = s.ext := by cases p <;> rfl
@[simp] theorem writePlace_cur (s : State) (p : Place) (b : Byte) : (s.writePlace p b).cur = s.cur := by cases p <;> rfl
@[simp] theorem writePlace_save_size (s : State) (p : Place) (b : Byte) : (s.writePlace p b).save.size = s.save.size := by cases p <;> rfl
@[simp] theorem writePlace_reg16 (s : State) (p : Place) (b : Byte) (q' : Reg16) : (s.writePlace p b).reg16 q' = s.reg16 q' := by cases p <;> rfl
@[simp] theorem writePlace_reg8 (s : State) (p : Place) (b : Byte) (q' : Reg8) : (s.writePlace p b).reg8 q' = s.reg8 q' := by cases p <;> rfl
@[simp] theorem writePlace_unset8 (s : State) (p : Place) (b : Byte) (q' : Reg8) : (s.writePlace p b).unset8 q' = s.unset8 q' := by cases p <;> rfl
@[simp] theorem writePlace_unset16 (s : State) (p : Place) (b : Byte) (q' : Reg16) : (s.writePlace p b).unset16 q' = s.unset16 q' := by cases p <;> rfl
@[simp] theorem writePlace_sreg (s : State) (p : Place) (b : Byte) (q' : SReg) : (s.writePlace p b).sreg q' = s.sreg q' := by cases p <;> rfl
@[simp] theorem writePlace_flag (s : State) (p : Place) (b : Byte) (q' : Flag) : (s.writePlace p b).flag q' = s.flag q' := by cases p <;> rfl
@[simp] theorem writePlace_locate (s : State) (p : Place) (b : Byte) (a' : Phys) : (s.writePlace p b).locate a' = s.locate a' := by cases p <;> rfl
@[simp] theorem writePlace_eaOff (s : State) (p : Place) (b : Byte) (m' : Mem) : (s.writePlace p b).eaOff m' = s.eaOff m' := by cases p <;> rfl
@[simp] theorem writePlace_eaSeg (s : State) (p : Place) (b : Byte) (m' : Mem) : (s.writePlace p b).eaSeg m' = s.eaSeg m' := by cases p <;> rfl
@[simp] theorem writePlace_segOr (s : State) (p : Place) (b : Byte) (d' : SReg) : (s.writePlace p b).segOr d' = s.segOr d' := by cases p <;> rfl
@[simp] theorem writePlace_loc8 (s : State) (p : Place) (b : Byte) (e' : Rm8) : (s.writePlace p b).loc8 e' = s.loc8 e' := by cases p <;> rfl
@[simp] theorem writePlace_loc16 (s : State) (p : Place) (b : Byte) (e' : Rm16) : (s.writePlace p b).loc16 e' = s.loc16 e' := by cases p <;> rfl
@[simp] theorem writePlace_ipNext (s : State) (p : Place) (b : Byte) (i' : Instr) : (s.writePlace p b).ipNext i' = s.ipNext i' := by cases p <;> rfl
@[simp] theorem writePlace_delta (s : State) (p : Place) (b : Byte) (n' : Word) : (s.writePlace p b).delta n' = s.delta n' := by cases p <;> rfl
@[simp] theorem writePlace_portOwner (s : State) (p : Place) (b : Byte) (p' : Word) : (s.writePlace p b).portOwner p' = s.portOwner p' := by cases p <;> rfl
@[simp] theorem writePlace_portRead8 (s : State) (p : Place) (b : Byte) (p' : Word) : (s.writePlace p b).portRead8 p' = s.portRead8 p' := by cases p <;> rfl
@[simp] theorem writePlace_highestPending (s : State) (p : Place) (b : Byte)  : (s.writePlace p b).highestPending  = s.highestPending  := by cases p <;> rfl
@[simp] theorem writePlace_shiftCount (s : State) (p : Place) (b : Byte) (c' : Byte) : (s.writePlace p b).shiftCount c' = s.shiftCount c' := by cases p <;> rfl
@[simp] theorem writePlace_timer (s : State) (p : Place) (b : Byte) (j' : Nat) : (s.writePlace p b).timer j' = s.timer j' := by cases p <;> rfl
@[simp] theorem writePlace_channel (s : State) (p : Place) (b : Byte) (j' : Nat) : (s.writePlace p b).channel j' = s.channel j' := by cases p <;> rfl

@[simp] theorem busWrite8_regs (s : State) (a : Phys) (b : Byte) : (s.busWrite8 a b).regs = s.regs := writePlace_regs _ _ _
@[simp] theorem busWrite8_unset (s : State) (a : Phys) (b : Byte) : (s.busWrite8 a b).unset = s.unset := writePlace_unset _ _ _
@[simp] theorem busWrite8_segs (s : State) (a : Phys) (b : Byte) : (s.busWrite8 a b).segs = s.segs := writePlace_segs _ _ _
@[simp] theorem busWrite8_ip (s : State) (a : Phys) (b : Byte) : (s.busWrite8 a b).ip = s.ip := writePlace_ip _ _ _
@[simp] theorem busWrite8_flags (s : State) (a : Phys) (b : Byte) : (s.busWrite8 a b).flags = s.flags := writePlace_flags _ _ _
@[simp] theorem busWrite8_halted (s : State) (a : Phys) (b : Byte) : (s.busWrite8 a b).halted = s.halted := writePlace_halted _ _ _
@[simp] theorem busWrite8_shadow (s : State) (a : Phys) (b : Byte) : (s.busWrite8 a b).shadow = s.shadow := writePlace_shadow _ _ _
@[simp] theorem busWrite8_diag (s : State) (a : Phys) (b : Byte) : (s.busWrite8 a b).diag = s.diag := writePlace_diag _ _ _
@[simp] theorem busWrite8_faults (s : State) (a : Phys) (b : Byte) : (s.busWrite8 a b).faults = s.faults := writePlace_faults _ _ _
@[simp] theorem busWrite8_ic (s : State) (a : Phys) (b : Byte) : (s.busWrite8 a b).ic = s.ic := writePlace_ic _ _ _
@[simp] theorem busWrite8_timers (s : State) (a : Phys) (b : Byte) : (s.busWrite8 a b).timers = s.timers := writePlace_timers _ _ _
@[simp] theorem busWrite8_ppu (s : State) (a : Phys) (b : Byte) : (s.busWrite8 a b).ppu = s.ppu := writePlace_ppu _ _ _
@[simp] theorem busWrite8_apu (s : State) (a : Phys) (b : Byte) : (s.busWrite8 a b).apu = s.apu := writePlace_apu _ _ _
@[simp] theorem busWrite8_banks (s : State) (a : Phys) (b : Byte) : (s.busWrite8 a b).banks = s.banks := writePlace_banks _ _ _
@[simp] theorem busWrite8_rom (s : State) (a : Phys) (b : Byte) : (s.busWrite8 a b).rom = s.rom := writePlace_rom _ _ _
@[simp] theorem busWrite8_rem (s : State) (a : Phys) (b : Byte) : (s.busWrite8 a b).rem = s.rem := writePlace_rem _ _ _
@[simp] theorem busWrite8_elapsed (s : State) (a : Phys) (b : Byte) : (s.busWrite8 a b).elapsed = s.elapsed := writePlace_elapsed _ _ _
@[simp] theorem busWrite8_mode (s : State) (a : Phys) (b : Byte) : (s.busWrite8 a b).mode = s.mode := writePlace_mode _ _ _
@[simp] theorem busWrite8_samples (s : State) (a : Phys) (b : Byte) : (s.busWrite8 a b).samples = s.samples := writePlace_samples _ _ _
@[simp] theorem busWrite8_raised (s : State) (a : Phys) (b : Byte) : (s.busWrite8 a b).raised = s.raised := writePlace_raised _ _ _
@[simp] theorem busWrite8_trace (s : State) (a : Phys) (b : Byte) : (s.busWrite8 a b).trace = s.trace := writePlace_trace _ _ _
@[simp] theorem busWrite8_input (s : State) (a : Phys) (b : Byte) : (s.busWrite8 a b).input = s.input := writePlace_input _ _ _
@[simp] theorem busWrite8_cfg (s : State) (a : Phys) (b : Byte) : (s.busWrite8 a b).cfg = s.cfg := writePlace_cfg _ _ _
@[simp] theorem busWrite8_ext (s : State) (a : Phys) (b : Byte) : (s.busWrite8 a b).ext = s.ext := writePlace_ext _ _ _
@[simp] theorem busWrite8_cur (s : State) (a : Phys) (b : Byte) : (s.busWrite8 a b).cur = s.cur := writePlace_cur _ _ _
@[simp] theorem busWrite8_save_size (s : State) (a : Phys) (b : Byte) : (s.busWrite8 a b).save.size = s.save.size := writePlace_save_size _ _ _
@[simp] theorem busWrite8_reg16 (s : State) (a : Phys) (b : Byte) (q' : Reg16) : (s.busWrite8 a b).reg16 q' = s.reg16 q' := writePlace_reg16 _ _ _ _
@[simp] theorem busWrite8_reg8 (s : State) (a : Phys) (b : Byte) (q' : Reg8) : (s.busWrite8 a b).reg8 q' = s.reg8 q' := writePlace_reg8 _ _ _ _
@[simp] theorem busWrite8_unset8 (s : State) (a : Phys) (b : Byte) (q' : Reg8) : (s.busWrite8 a b).unset8 q' = s.unset8 q' := writePlace_unset8 _ _ _ _
@[simp] theorem busWrite8_unset16 (s : State) (a : Phys) (b : Byte) (q' : Reg16) : (s.busWrite8 a b).unset16 q' = s.unset16 q' := writePlace_unset16 _ _ _ _
@[simp] theorem busWrite8_sreg (s : State) (a : Phys) (b : Byte) (q' : SReg) : (s.busWrite8 a b).sreg q' = s.sreg q' := writePlace_sreg _ _ _ _
@[simp] theorem busWrite8_flag (s : State) (a : Phys) (b : Byte) (q' : Flag) : (s.busWrite8 a b).flag q' = s.flag q' := writePlace_flag _ _ _ _
@[simp] theorem busWrite8_locate (s : State) (a : Phys) (b : Byte) (a' : Phys) : (s.busWrite8 a b).locate a' = s.locate a' := writePlace_locate _ _ _ _
@[simp] theorem busWrite8_eaOff (s : State) (a : Phys) (b : Byte) (m' : Mem) : (s.busWrite8 a b).eaOff m' = s.eaOff m' := writePlace_eaOff _ _ _ _
@[simp] theorem busWrite8_eaSeg (s : State) (a : Phys) (b : Byte) (m' : Mem) : (s.busWrite8 a b).eaSeg m' = s.eaSeg m' := writePlace_eaSeg _ _ _ _
@[simp] theorem busWrite8_segOr (s : State) (a : Phys) (b : Byte) (d' : SReg) : (s.busWrite8 a b).segOr d' = s.segOr d' := writePlace_segOr _ _ _ _
@[simp] theorem busWrite8_loc8 (s : State) (a : Phys) (b : Byte) (e' : Rm8) : (s.busWrite8 a b).loc8 e' = s.loc8 e' := writePlace_loc8 _ _ _ _
@[simp] theorem busWrite8_loc16 (s : State) (a : Phys) (b : Byte) (e' : Rm16) : (s.busWrite8 a b).loc16 e' = s.loc16 e' := writePlace_loc16 _ _ _ _
@[simp] theorem busWrite8_ipNext (s : State) (a : Phys) (b : Byte) (i' : Instr) : (s.busWrite8 a b).ipNext i' = s.ipNext i' := writePlace_ipNext _ _ _ _
@[simp] theorem busWrite8_delta (s : State) (a : Phys) (b : Byte) (n' : Word) : (s.busWrite8 a b).delta n' = s.delta n' := writePlace_delta _ _ _ _
@[simp] theorem busWrite8_portOwner (s : State) (a : Phys) (b : Byte) (p' : Word) : (s.busWrite8 a b).portOwner p' = s.portOwner p' := writePlace_portOwner _ _ _ _
@[simp] theorem busWrite8_portRead8 (s : State) (a : Phys) (b : Byte) (p' : Word) : (s.busWrite8 a b).portRead8 p' = s.portRead8 p' := writePlace_portRead8 _ _ _ _
@[simp] theorem busWrite8_highestPending (s : State) (a : Phys) (b : Byte)  : (s.busWrite8 a b).highestPending  = s.highestPending  := writePlace_highestPending _ _ _
@[simp] theorem busWrite8_shiftCount (s : State) (a : Phys) (b : Byte) (c' : Byte) : (s.busWrite8 a b).shiftCount c' = s.shiftCount c' := writePlace_shiftCount _ _ _ _
@[simp] theorem busWrite8_timer (s : State) (a : Phys) (b : Byte) (j' : Nat) : (s.busWrite8 a b).timer j' = s.timer j' := writePlace_timer _ _ _ _
@[simp] theorem busWrite8_channel (s : State) (a : Phys) (b : Byte) (j' : Nat) : (s.busWrite8 a b).channel j' = s.channel j' := writePlace_channel _ _ _ _

@[simp] theorem writeMem8_regs (s : State) (sg off : Word) (v : Byte) : (s.writeMem8 sg off v).regs = s.regs := busWrite8_regs _ _ _
@[simp] theorem writeMem8_unset (s : State) (sg off : Word) (v : Byte) : (s.writeMem8 sg off v).unset = s.unset := busWrite8_unset _ _ _
@[simp] theorem writeMem8_segs (s : State) (sg off : Word) (v : Byte) : (s.writeMem8 sg off v).segs = s.segs := busWrite8_segs _ _ _
@[simp] theorem writeMem8_ip (s : State) (sg off : Word) (v : Byte) : (s.writeMem8 sg off v).ip = s.ip := busWrite8_ip _ _ _
@[simp] theorem writeMem8_flags (s : State) (sg off : Word) (v : Byte) : (s.writeMem8 sg off v).flags = s.flags := busWrite8_flags _ _ _
@[simp] theorem writeMem8_halted (s : State) (sg off : Word) (v : Byte) : (s.writeMem8 sg off v).halted = s.halted := busWrite8_halted _ _ _
@[simp] theorem writeMem8_shadow (s : State) (sg off : Word) (v : Byte) : (s.writeMem8 sg off v).shadow = s.shadow := busWrite8_shadow _ _ _
@[simp] theorem writeMem8_diag (s : State) (sg off : Word) (v : Byte) : (s.writeMem8 sg off v).diag = s.diag := busWrite8_diag _ _ _
@[simp] theorem writeMem8_faults (s : State) (sg off : Word) (v : Byte) : (s.writeMem8 sg off v).faults = s.faults := busWrite8_faults _ _ _
@[simp] theorem writeMem8_ic (s : State) (sg off : Word) (v : Byte) : (s.writeMem8 sg off v).ic = s.ic := busWrite8_ic _ _ _
@[simp] theorem writeMem8_timers (s : State) (sg off : Word) (v : Byte) : (s.writeMem8 sg off v).timers = s.timers := busWrite8_timers _ _ _
@[simp] theorem writeMem8_ppu (s : State) (sg off : Word) (v : Byte) : (s.writeMem8 sg off v).ppu = s.ppu := busWrite8_ppu _ _ _
@[simp] theorem writeMem8_apu (s : State) (sg off : Word) (v : Byte) : (s.writeMem8 sg off v).apu = s.apu := busWrite8_apu _ _ _
@[simp] theorem writeMem8_banks (s : State) (sg off : Word) (v : Byte) : (s.writeMem8 sg off v).banks = s.banks := busWrite8_banks _ _ _
@[simp] theorem writeMem8_rom (s : State) (sg off : Word) (v : Byte) : (s.writeMem8 sg off v).rom = s.rom := busWrite8_rom _ _ _
@[simp] theorem writeMem8_rem (s : State) (sg off : Word) (v : Byte) : (s.writeMem8 sg off v).rem = s.rem := busWrite8_rem _ _ _
@[simp] theorem writeMem8_elapsed (s : State) (sg off : Word) (v : Byte) : (s.writeMem8 sg off v).elapsed = s.elapsed := busWrite8_elapsed _ _ _
@[simp] theorem writeMem8_mode (s : State) (sg off : Word) (v : Byte) : (s.writeMem8 sg off v).mode = s.mode := busWrite8_mode _ _ _
@[simp] theorem writeMem8_samples (s : State) (sg off : Word) (v : Byte) : (s.writeMem8 sg off v).samples = s.samples := busWrite8_samples _ _ _
@[simp] theorem writeMem8_raised (s : State) (sg off : Word) (v : Byte) : (s.writeMem8 sg off v).raised = s.raised := busWrite8_raised _ _ _
@[simp] theorem writeMem8_trace (s : State) (sg off : Word) (v : Byte) : (s.writeMem8 sg off v).trace = s.trace := busWrite8_trace _ _ _
@[simp] theorem writeMem8_input (s : State) (sg off : Word) (v : Byte) : (s.writeMem8 sg off v).input = s.input := busWrite8_input _ _ _
@[simp] theorem writeMem8_cfg (s : State) (sg off : Word) (v : Byte) : (s.writeMem8 sg off v).cfg = s.cfg := busWrite8_cfg _ _ _
@[simp] theorem writeMem8_ext (s : State) (sg off : Word) (v : Byte) : (s.writeMem8 sg off v).ext = s.ext := busWrite8_ext _ _ _
@[simp] theorem writeMem8_cur (s : State) (sg off : Word) (v : Byte) : (s.writeMem8 sg off v).cur = s.cur := busWrite8_cur _ _ _
@[simp] theorem writeMem8_save_size (s : State) (sg off : Word) (v : Byte) : (s.writeMem8 sg off v).save.size = s.save.size := busWrite8_save_size _ _ _
@[simp] theorem writeMem8_reg16 (s : State) (sg off : Word) (v : Byte) (q' : Reg16) : (s.writeMem8 sg off v).reg16 q' = s.reg16 q' := busWrite8_reg16 _ _ _ _
@[simp] theorem writeMem8_reg8 (s : State) (sg off : Word) (v : Byte) (q' : Reg8) : (s.writeMem8 sg off v).reg8 q' = s.reg8 q' := busWrite8_reg8 _ _ _ _
@[simp] theorem writeMem8_unset8 (s : State) (sg off : Word) (v : Byte) (q' : Reg8) : (s.writeMem8 sg off v).unset8 q' = s.unset8 q' := busWrite8_unset8 _ _ _ _
@[simp] theorem writeMem8_unset16 (s : State) (sg off : Word) (v : Byte) (q' : Reg16) : (s.writeMem8 sg off v).unset16 q' = s.unset16 q' := busWrite8_unset16 _ _ _ _
@[simp] theorem writeMem8_sreg (s : State) (sg off : Word) (v : Byte) (q' : SReg) : (s.writeMem8 sg off v).sreg q' = s.sreg q' := busWrite8_sreg _ _ _ _
@[simp] theorem writeMem8_flag (s : State) (sg off : Word) (v : Byte) (q' : Flag) : (s.writeMem8 sg off v).flag q' = s.flag q' := busWrite8_flag _ _ _ _
@[simp] theorem writeMem8_locate (s : State) (sg off : Word) (v : Byte) (a' : Phys) : (s.writeMem8 sg off v).locate a' = s.locate a' := busWrite8_locate _ _ _ _
@[simp] theorem writeMem8_eaOff (s : State) (sg off : Word) (v : Byte) (m' : Mem) : (s.writeMem8 sg off v).eaOff m' = s.eaOff m' := busWrite8_eaOff _ _ _ _
@[simp] theorem writeMem8_eaSeg (s : State) (sg off : Word) (v : Byte) (m' : Mem) : (s.writeMem8 sg off v).eaSeg m' = s.eaSeg m' := busWrite8_eaSeg _ _ _ _
@[simp] theorem writeMem8_segOr (s : State) (sg off : Word) (v : Byte) (d' : SReg) : (s.writeMem8 sg off v).segOr d' = s.segOr d' := busWrite8_segOr _ _ _ _
@[simp] theorem writeMem8_loc8 (s : State) (sg off : Word) (v : Byte) (e' : Rm8) : (s.writeMem8 sg off v).loc8 e' = s.loc8 e' := busWrite8_loc8 _ _ _ _
@[simp] theorem writeMem8_loc16 (s : State) (sg off : Word) (v : Byte) (e' : Rm16) : (s.writeMem8 sg off v).loc16 e' = s.loc16 e' := busWrite8_loc16 _ _ _ _
@[simp] theorem writeMem8_ipNext (s : State) (sg off : Word) (v : Byte) (i' : Instr) : (s.writeMem8 sg off v).ipNext i' = s.ipNext i' := busWrite8_ipNext _ _ _ _
@[simp] theorem writeMem8_delta (s : State) (sg off : Word) (v : Byte) (n' : Word) : (s.writeMem8 sg off v).delta n' = s.delta n' := busWrite8_delta _ _ _ _
@[simp] theorem writeMem8_portOwner (s : State) (sg off : Word) (v : Byte) (p' : Word) : (s.writeMem8 sg off v).portOwner p' = s.portOwner p' := busWrite8_portOwner _ _ _ _
@[simp] theorem writeMem8_portRead8 (s : State) (sg off : Word) (v : Byte) (p' : Word) : (s.writeMem8 sg off v).portRead8 p' = s.portRead8 p' := busWrite8_portRead8 _ _ _ _
@[simp] theorem writeMem8_highestPending (s : State) (sg off : Word) (v : Byte)  : (s.writeMem8 sg off v).highestPending  = s.highestPending  := busWrite8_highestPending _ _ _
@[simp] theorem writeMem8_shiftCount (s : State) (sg off : Word) (v : Byte) (c' : Byte) : (s.writeMem8 sg off v).shiftCount c' = s.shiftCount c' := busWrite8_shiftCount _ _ _ _
@[simp] theorem writeMem8_timer (s : State) (sg off : Word) (v : Byte) (j' : Nat) : (s.writeMem8 sg off v).timer j' = s.timer j' := busWrite8_timer _ _ _ _
@[simp] theorem writeMem8_channel (s : State) (sg off : Word) (v : Byte) (j' : Nat) : (s.writeMem8 sg off v).channel j' = s.channel j' := busWrite8_channel _ _ _ _

@[simp] theorem writeMem16_regs (s : State) (sg off v : Word) : (s.writeMem16 sg off v).regs = s.regs := by simp [State.writeMem16]
@[simp] theorem writeMem16_unset (s : State) (sg off v : Word) : (s.writeMem16 sg off v).unset = s.unset := by simp [State.writeMem16]
@[simp] theorem writeMem16_segs (s : State) (sg off v : Word) : (s.writeMem16 sg off v).segs = s.segs := by simp [State.writeMem16]
@[simp] theorem writeMem16_ip (s : State) (sg off v : Word) : (s.writeMem16 sg off v).ip = s.ip := by simp [State.writeMem16]
@[simp] theorem writeMem16_flags (s : State) (sg off v : Word) : (s.writeMem16 sg off v).flags = s.flags := by simp [State.writeMem16]
@[simp] theorem writeMem16_halted (s : State) (sg off v : Word) : (s.writeMem16 sg off v).halted = s.halted := by simp [State.writeMem16]
@[simp] theorem writeMem16_shadow (s : State) (sg off v : Word) : (s.writeMem16 sg off v).shadow = s.shadow := by simp [State.writeMem16]
@[simp] theorem writeMem16_diag (s : State) (sg off v : Word) : (s.writeMem16 sg off v).diag = s.diag := by simp [State.writeMem16]
@[simp] theorem writeMem16_faults (s : State) (sg off v : Word) : (s.writeMem16 sg off v).faults = s.faults := by simp [State.writeMem16]
@[simp] theorem writeMem16_ic (s : State) (sg off v : Word) : (s.writeMem16 sg off v).ic = s.ic := by simp [State.writeMem16]
@[simp] theorem writeMem16_timers (s : State) (sg off v : Word) : (s.writeMem16 sg off v).timers = s.timers := by simp [State.writeMem16]
@[simp] theorem writeMem16_ppu (s : State) (sg off v : Word) : (s.writeMem16 sg off v).ppu = s.ppu := by simp [State.writeMem16]
@[simp] theorem writeMem16_apu (s : State) (sg off v : Word) : (s.writeMem16 sg off v).apu = s.apu := by simp [State.writeMem16]
@[simp] theorem writeMem16_banks (s : State) (sg off v : Word) : (s.writeMem16 sg off v).banks = s.banks := by simp [State.writeMem16]
@[simp] theorem writeMem16_rom (s : State) (sg off v : Word) : (s.writeMem16 sg off v).rom = s.rom := by simp [State.writeMem16]
@[simp] theorem writeMem16_rem (s : State) (sg off v : Word) : (s.writeMem16 sg off v).rem = s.rem := by simp [State.writeMem16]
@[simp] theorem writeMem16_elapsed (s : State) (sg off v : Word) : (s.writeMem16 sg off v).elapsed = s.elapsed := by simp [State.writeMem16]
@[simp] theorem writeMem16_mode (s : State) (sg off v : Word) : (s.writeMem16 sg off v).mode = s.mode := by simp [State.writeMem16]
@[simp] theorem writeMem16_samples (s : State) (sg off v : Word) : (s.writeMem16 sg off v).samples = s.samples := by simp [State.writeMem16]
@[simp] theorem writeMem16_raised (s : State) (sg off v : Word) : (s.writeMem16 sg off v).raised = s.raised := by simp [State.writeMem16]
@[simp] theorem writeMem16_trace (s : State) (sg off v : Word) : (s.writeMem16 sg off v).trace = s.trace := by simp [State.writeMem16]
@[simp] theorem writeMem16_input (s : State) (sg off v : Word) : (s.writeMem16 sg off v).input = s.input := by simp [State.writeMem16]
@[simp] theorem writeMem16_cfg (s : State) (sg off v : Word) : (s.writeMem16 sg off v).cfg = s.cfg := by simp [State.writeMem16]
@[simp] theorem writeMem16_ext (s : State) (sg off v : Word) : (s.writeMem16 sg off v).ext = s.ext := by simp [State.writeMem16]
@[simp] theorem writeMem16_cur (s : State) (sg off v : Word) : (s.writeMem16 sg off v).cur = s.cur := by simp [State.writeMem16]
@[simp] theorem writeMem16_save_size (s : State) (sg off v : Word) : (s.writeMem16 sg off v).save.size = s.save.size := by simp [State.writeMem16]
@[simp] theorem writeMem16_reg16 (s : State) (sg off v : Word) (q' : Reg16) : (s.writeMem16 sg off v).reg16 q' = s.reg16 q' := by simp [State.writeMem16]
@[simp] theorem writeMem16_reg8 (s : State) (sg off v : Word) (q' : Reg8) : (s.writeMem16 sg off v).reg8 q' = s.reg8 q' := by simp [State.writeMem16]
@[simp] theorem writeMem16_unset8 (s : State) (sg off v : Word) (q' : Reg8) : (s.writeMem16 sg off v).unset8 q' = s.unset8 q' := by simp [State.writeMem16]
@[simp] theorem writeMem16_unset16 (s : State) (sg off v : Word) (q' : Reg16) : (s.writeMem16 sg off v).unset16 q' = s.unset16 q' := by simp [State.writeMem16]
@[simp] theorem writeMem16_sreg (s : State) (sg off v : Word) (q' : SReg) : (s.writeMem16 sg off v).sreg q' = s.sreg q' := by simp [State.writeMem16]
@[simp] theorem writeMem16_flag (s : State) (sg off v : Word) (q' : Flag) : (s.writeMem16 sg off v).flag q' = s.flag q' := by simp [State.writeMem16]
@[simp] theorem writeMem16_locate (s : State) (sg off v : Word) (a' : Phys) : (s.writeMem16 sg off v).locate a' = s.locate a' := by simp [State.writeMem16]
@[simp] theorem writeMem16_eaOff (s : State) (sg off v : Word) (m' : Mem) : (s.writeMem16 sg off v).eaOff m' = s.eaOff m' := by simp [State.writeMem16]
@[simp] theorem writeMem16_eaSeg (s : State) (sg off v : Word) (m' : Mem) : (s.writeMem16 sg off v).eaSeg m' = s.eaSeg m' := by simp [State.writeMem16]
@[simp] theorem writeMem16_segOr (s : State) (sg off v : Word) (d' : SReg) : (s.writeMem16 sg off v).segOr d' = s.segOr d' := by simp [State.writeMem16]
@[simp] theorem writeMem16_loc8 (s : State) (sg off v : Word) (e' : Rm8) : (s.writeMem16 sg off v).loc8 e' = s.loc8 e' := by simp [State.writeMem16]
@[simp] theorem writeMem16_loc16 (s : State) (sg off v : Word) (e' : Rm16) : (s.writeMem16 sg off v).loc16 e' = s.loc16 e' := by simp [State.writeMem16]
@[simp] theorem writeMem16_ipNext (s : State) (sg off v : Word) (i' : Instr) : (s.writeMem16 sg off v).ipNext i' = s.ipNext i' := by simp [State.writeMem16]
@[simp] theorem writeMem16_delta (s : State) (sg off v : Word) (n' : Word) : (s.writeMem16 sg off v).delta n' = s.delta n' := by simp [State.writeMem16]
@[simp] theorem writeMem16_portOwner (s : State) (sg off v : Word) (p' : Word) : (s.writeMem16 sg off v).portOwner p' = s.portOwner p' := by simp [State.writeMem16]
@[simp] theorem writeMem16_portRead8 (s : State) (sg off v : Word) (p' : Word) : (s.writeMem16 sg off v).portRead8 p' = s.portRead8 p' := by simp [State.writeMem16]
@[simp] theorem writeMem16_highestPending (s : State) (sg off v : Word)  : (s.writeMem16 sg off v).highestPending  = s.highestPending  := by simp [State.writeMem16]
@[simp] theorem writeMem16_shiftCount (s : State) (sg off v : Word) (c' : Byte) : (s.writeMem16 sg off v).shiftCount c' = s.shiftCount c' := by simp [State.writeMem16]
@[simp] theorem writeMem16_timer (s : State) (sg off v : Word) (j' : Nat) : (s.writeMem16 sg off v).timer j' = s.timer j' := by simp [State.writeMem16]
@[simp] theorem writeMem16_channel (s : State) (sg off v : Word) (j' : Nat) : (s.writeMem16 sg off v).channel j' = s.channel j' := by simp [State.writeMem16]

@[simp] theorem write8_segs (s : State) (l : Loc8) (v : Byte) : (s.write8 l v).segs = s.segs := by cases l <;> simp [State.write8]
@[simp] theorem write8_ip (s : State) (l : Loc8) (v : Byte) : (s.write8 l v).ip = s.ip := by cases l <;> simp [State.write8]
@[simp] theorem write8_flags (s : State) (l : Loc8) (v : Byte) : (s.write8 l v).flags = s.flags := by cases l <;> simp [State.write8]
@[simp] theorem write8_halted (s : State) (l : Loc8) (v : Byte) : (s.write8 l v).halted = s.halted := by cases l <;> simp [State.write8]
@[simp] theorem write8_shadow (s : State) (l : Loc8) (v : Byte) : (s.write8 l v).shadow = s.shadow := by cases l <;> simp [State.write8]
@[simp] theorem write8_diag (s : State) (l : Loc8) (v : Byte) : (s.write8 l v).diag = s.diag := by cases l <;> simp [State.write8]
@[simp] theorem write8_faults (s : State) (l : Loc8) (v : Byte) : (s.write8 l v).faults = s.faults := by cases l <;> simp [State.write8]
@[simp] theorem write8_ic (s : State) (l : Loc8) (v : Byte) : (s.write8 l v).ic = s.ic := by cases l <;> simp [State.write8]
@[simp] theorem write8_timers (s : State) (l : Loc8) (v : Byte) : (s.write8 l v).timers = s.timers := by cases l <;> simp [State.write8]
@[simp] theorem write8_ppu (s : State) (l : Loc8) (v : Byte) : (s.write8 l v).ppu = s.ppu := by cases l <;> simp [State.write8]
@[simp] theorem write8_apu (s : State) (l : Loc8) (v : Byte) : (s.write8 l v).apu = s.apu := by cases l <;> simp [State.write8]
@[simp] theorem write8_banks (s : State) (l : Loc8) (v : Byte) : (s.write8 l v).banks = s.banks := by cases l <;> simp [State.write8]
@[simp] theorem write8_rom (s : State) (l : Loc8) (v : Byte) : (s.write8 l v).rom = s.rom := by cases l <;> simp [State.write8]
@[simp] theorem write8_rem (s : State) (l : Loc8) (v : Byte) : (s.write8 l v).rem = s.rem := by cases l <;> simp [State.write8]
@[simp] theorem write8_elapsed (s : State) (l : Loc8) (v : Byte) : (s.write8 l v).elapsed = s.elapsed := by cases l <;> simp [State.write8]
@[simp] theorem write8_mode (s : State) (l : Loc8) (v : Byte) : (s.write8 l v).mode = s.mode := by cases l <;> simp [State.write8]
@[simp] theorem write8_samples (s : State) (l : Loc8) (v : Byte) : (s.write8 l v).samples = s.samples := by cases l <;> simp [State.write8]
@[simp] theorem write8_raised (s : State) (l : Loc8) (v : Byte) : (s.write8 l v).raised = s.raised := by cases l <;> simp [State.write8]
@[simp] theorem write8_trace (s : State) (l : Loc8) (v : Byte) : (s.write8 l v).trace = s.trace := by cases l <;> simp [State.write8]
@[simp] theorem write8_input (s : State) (l : Loc8) (v : Byte) : (s.write8 l v).input = s.input := by cases l <;> simp [State.write8]
@[simp] theorem write8_cfg (s : State) (l : Loc8) (v : Byte) : (s.write8 l v).cfg = s.cfg := by cases l <;> simp [State.write8]
@[simp] theorem write8_ext (s : State) (l : Loc8) (v : Byte) : (s.write8 l v).ext = s.ext := by cases l <;> simp [State.write8]
@[simp] theorem write8_cur (s : State) (l : Loc8) (v : Byte) : (s.write8 l v).cur = s.cur := by cases l <;> simp [State.write8]
@[simp] theorem write8_save_size (s : State) (l : Loc8) (v : Byte) : (s.write8 l v).save.size = s.save.size := by cases l <;> simp [State.write8]
@[simp] theorem write8_sreg (s : State) (l : Loc8) (v : Byte) (q' : SReg) : (s.write8 l v).sreg q' = s.sreg q' := by cases l <;> simp [State.write8]
@[simp] theorem write8_flag (s : State) (l : Loc8) (v : Byte) (q' : Flag) : (s.write8 l v).flag q' = s.flag q' := by cases l <;> simp [State.write8]
@[simp] theorem write8_locate (s : State) (l : Loc8) (v : Byte) (a' : Phys) : (s.write8 l v).locate a' = s.locate a' := by cases l <;> simp [State.write8]
@[simp] theorem write8_eaSeg (s : State) (l : Loc8) (v : Byte) (m' : Mem) : (s.write8 l v).eaSeg m' = s.eaSeg m' := by cases l <;> simp [State.write8]
@[simp] theorem write8_segOr (s : State) (l : Loc8) (v : Byte) (d' : SReg) : (s.write8 l v).segOr d' = s.segOr d' := by cases l <;> simp [State.write8]
@[simp] theorem write8_ipNext (s : State) (l : Loc8) (v : Byte) (i' : Instr) : (s.write8 l v).ipNext i' = s.ipNext i' := by cases l <;> simp [State.write8]
@[simp] theorem write8_delta (s : State) (l : Loc8) (v : Byte) (n' : Word) : (s.write8 l v).delta n' = s.delta n' := by cases l <;> simp [State.write8]
@[simp] theorem write8_portOwner (s : State) (l : Loc8) (v : Byte) (p' : Word) : (s.write8 l v).portOwner p' = s.portOwner p' := by cases l <;> simp [State.write8]
@[simp] theorem write8_portRead8 (s : State) (l : Loc8) (v : Byte) (p' : Word) : (s.write8 l v).portRead8 p' = s.portRead8 p' := by cases l <;> simp [State.write8]
@[simp] theorem write8_highestPending (s : State) (l : Loc8) (v : Byte)  : (s.write8 l v).highestPending  = s.highestPending  := by cases l <;> simp [State.write8]
@[simp] theorem write8_shiftCount (s : State) (l : Loc8) (v : Byte) (c' : Byte) : (s.write8 l v).shiftCount c' = s.shiftCount c' := by cases l <;> simp [State.write8]
@[simp] theorem write8_timer (s : State) (l : Loc8) (v : Byte) (j' : Nat) : (s.write8 l v).timer j' = s.timer j' := by cases l <;> simp [State.write8]
@[simp] theorem write8_channel (s : State) (l : Loc8) (v : Byte) (j' : Nat) : (s.write8 l v).channel j' = s.channel j' := by cases l <;> simp [State.write8]

@[simp] theorem write16_segs (s : State) (l : Loc16) (v : Word) : (s.write16 l v).segs = s.segs := by cases l <;> simp [State.write16]
@[simp] theorem write16_ip (s : State) (l : Loc16) (v : Word) : (s.write16 l v).ip = s.ip := by cases l <;> simp [State.write16]
@[simp] theorem write16_flags (s : State) (l : Loc16) (v : Word) : (s.write16 l v).flags = s.flags := by cases l <;> simp [State.write16]
@[simp] theorem write16_halted (s : State) (l : Loc16) (v : Word) : (s.write16 l v).halted = s.halted := by cases l <;> simp [State.write16]
@[simp] theorem write16_shadow (s : State) (l : Loc16) (v : Word) : (s.write16 l v).shadow = s.shadow := by cases l <;> simp [State.write16]
@[simp] theorem write16_diag (s : State) (l : Loc16) (v : Word) : (s.write16 l v).diag = s.diag := by cases l <;> simp [State.write16]
@[simp] theorem write16_faults (s : State) (l : Loc16) (v : Word) : (s.write16 l v).faults = s.faults := by cases l <;> simp [State.write16]
@[simp] theorem write16_ic (s : State) (l : Loc16) (v : Word) : (s.write16 l v).ic = s.ic := by cases l <;> simp [State.write16]
@[simp] theorem write16_timers (s : State) (l : Loc16) (v : Word) : (s.write16 l v).timers = s.timers := by cases l <;> simp [State.write16]
@[simp] theorem write16_ppu (s : State) (l : Loc16) (v : Word) : (s.write16 l v).ppu = s.ppu := by cases l <;> simp [State.write16]
@[simp] theorem write16_apu (s : State) (l : Loc16) (v : Word) : (s.write16 l v).apu = s.apu := by cases l <;> simp [State.write16]
@[simp] theorem write16_banks (s : State) (l : Loc16) (v : Word) : (s.write16 l v).banks = s.banks := by cases l <;> simp [State.write16]
@[simp] theorem write16_rom (s : State) (l : Loc16) (v : Word) : (s.write16 l v).rom = s.rom := by cases l <;> simp [State.write16]
@[simp] theorem write16_rem (s : State) (l : Loc16) (v : Word) : (s.write16 l v).rem = s.rem := by cases l <;> simp [State.write16]
@[simp] theorem write16_elapsed (s : State) (l : Loc16) (v : Word) : (s.write16 l v).elapsed = s.elapsed := by cases l <;> simp [State.write16]
@[simp] theorem write16_mode (s : State) (l : Loc16) (v : Word) : (s.write16 l v).mode = s.mode := by cases l <;> simp [State.write16]
@[simp] theorem write16_samples (s : State) (l : Loc16) (v : Word) : (s.write16 l v).samples = s.samples := by cases l <;> simp [State.write16]
@[simp] theorem write16_raised (s : State) (l : Loc16) (v : Word) : (s.write16 l v).raised = s.raised := by cases l <;> simp [State.write16]
@[simp] theorem write16_trace (s : State) (l : Loc16) (v : Word) : (s.write16 l v).trace = s.trace := by cases l <;> simp [State.write16]
@[simp] theorem write16_input (s : State) (l : Loc16) (v : Word) : (s.write16 l v).input = s.input := by cases l <;> simp [State.write16]
@[simp] theorem write16_cfg (s : State) (l : Loc16) (v : Word) : (s.write16 l v).cfg = s.cfg := by cases l <;> simp [State.write16]
@[simp] theorem write16_ext (s : State) (l : Loc16) (v : Word) : (s.write16 l v).ext = s.ext := by cases l <;> simp [State.write16]
@[simp] theorem write16_cur (s : State) (l : Loc16) (v : Word) : (s.write16 l v).cur = s.cur := by cases l <;> simp [State.write16]
@[simp] theorem write16_save_size (s : State) (l : Loc16) (v : Word) : (s.write16 l v).save.size = s.save.size := by cases l <;> simp [State.write16]
@[simp] theorem write16_sreg (s : State) (l : Loc16) (v : Word) (q' : SReg) : (s.write16 l v).sreg q' = s.sreg q' := by cases l <;> simp [State.write16]
@[simp] theorem write16_flag (s : State) (l : Loc16) (v : Word) (q' : Flag) : (s.write16 l v).flag q' = s.flag q' := by cases l <;> simp [State.write16]
@[simp] theorem write16_locate (s : State) (l : Loc16) (v : Word) (a' : Phys) : (s.write16 l v).locate a' = s.locate a' := by cases l <;> simp [State.write16]
@[simp] theorem write16_eaSeg (s : State) (l : Loc16) (v : Word) (m' : Mem) : (s.write16 l v).eaSeg m' = s.eaSeg m' := by cases l <;> simp [State.write16]
@[simp] theorem write16_segOr (s : State) (l : Loc16) (v : Word) (d' : SReg) : (s.write16 l v).segOr d' = s.segOr d' := by cases l <;> simp [State.write16]
@[simp] theorem write16_ipNext (s : State) (l : Loc16) (v : Word) (i' : Instr) : (s.write16 l v).ipNext i' = s.ipNext i' := by cases l <;> simp [State.write16]
@[simp] theorem write16_delta (s : State) (l : Loc16) (v : Word) (n' : Word) : (s.write16 l v).delta n' = s.delta n' := by cases l <;> simp [State.write16]
@[simp] theorem write16_portOwner (s : State) (l : Loc16) (v : Word) (p' : Word) : (s.write16 l v).portOwner p' = s.portOwner p' := by cases l <;> simp [State.write16]
@[simp] theorem write16_portRead8 (s : State) (l : Loc16) (v : Word) (p' : Word) : (s.write16 l v).portRead8 p' = s.portRead8 p' := by cases l <;> simp [State.write16]
@[simp] theorem write16_highestPending (s : State) (l : Loc16) (v : Word)  : (s.write16 l v).highestPending  = s.highestPending  := by cases l <;> simp [State.write16]
@[simp] theorem write16_shiftCount (s : State) (l : Loc16) (v : Word) (c' : Byte) : (s.write16 l v).shiftCount c' = s.shiftCount c' := by cases l <;> simp [State.write16]
@[simp] theorem write16_timer (s : State) (l : Loc16) (v : Word) (j' : Nat) : (s.write16 l v).timer j' = s.timer j' := by cases l <;> simp [State.write16]
@[simp] theorem write16_channel (s : State) (l : Loc16) (v : Word) (j' : Nat) : (s.write16 l v).channel j' = s.channel j' := by cases l <;> simp [State.write16]

@[simp] theorem portWrite8_regs (s : State) (p : Word) (v : Byte) : (s.portWrite8 p v).regs = s.regs := by unfold State.portWrite8; split <;> rfl
@[simp] theorem portWrite8_unset (s : State) (p : Word) (v : Byte) : (s.portWrite8 p v).unset = s.unset := by unfold State.portWrite8; split <;> rfl
@[simp] theorem portWrite8_segs (s : State) (p : Word) (v : Byte) : (s.portWrite8 p v).segs = s.segs := by unfold State.portWrite8; split <;> rfl
@[simp] theorem portWrite8_ip (s : State) (p : Word) (v : Byte) : (s.portWrite8 p v).ip = s.ip := by unfold State.portWrite8; split <;> rfl
@[simp] theorem portWrite8_flags (s : State) (p : Word) (v : Byte) : (s.portWrite8 p v).flags = s.flags := by unfold State.portWrite8; split <;> rfl
@[simp] theorem portWrite8_halted (s : State) (p : Word) (v : Byte) : (s.portWrite8 p v).halted = s.halted := by unfold State.portWrite8; split <;> rfl
@[simp] theorem portWrite8_shadow (s : State) (p : Word) (v : Byte) : (s.portWrite8 p v).shadow = s.shadow := by unfold State.portWrite8; split <;> rfl
@[simp] theorem portWrite8_diag (s : State) (p : Word) (v : Byte) : (s.portWrite8 p v).diag = s.diag := by unfold State.portWrite8; split <;> rfl
@[simp] theorem portWrite8_faults (s : State) (p : Word) (v : Byte) : (s.portWrite8 p v).faults = s.faults := by unfold State.portWrite8; split <;> rfl
@[simp] theorem portWrite8_ram (s : State) (p : Word) (v : Byte) : (s.portWrite8 p v).ram = s.ram := by unfold State.portWrite8; split <;> rfl
@[simp] theorem portWrite8_rom (s : State) (p : Word) (v : Byte) : (s.portWrite8 p v).rom = s.rom := by unfold State.portWrite8; split <;> rfl
@[simp] theorem portWrite8_save (s : State) (p : Word) (v : Byte) : (s.portWrite8 p v).save = s.save := by unfold State.portWrite8; split <;> rfl
@[simp] theorem portWrite8_rem (s : State) (p : Word) (v : Byte) : (s.portWrite8 p v).rem = s.rem := by unfold State.portWrite8; split <;> rfl
@[simp] theorem portWrite8_elapsed (s : State) (p : Word) (v : Byte) : (s.portWrite8 p v).elapsed = s.elapsed := by unfold State.portWrite8; split <;> rfl
@[simp] theorem portWrite8_mode (s : State) (p : Word) (v : Byte) : (s.portWrite8 p v).mode = s.mode := by unfold State.portWrite8; split <;> rfl
@[simp] theorem portWrite8_samples (s : State) (p : Word) (v : Byte) : (s.portWrite8 p v).samples = s.samples := by unfold State.portWrite8; split <;> rfl
@[simp] theorem portWrite8_raised (s : State) (p : Word) (v : Byte) : (s.portWrite8 p v).raised = s.raised := by unfold State.portWrite8; split <;> rfl
@[simp] theorem portWrite8_trace (s : State) (p : Word) (v : Byte) : (s.portWrite8 p v).trace = s.trace := by unfold State.portWrite8; split <;> rfl
@[simp] theorem portWrite8_input (s : State) (p : Word) (v : Byte) : (s.portWrite8 p v).input = s.input := by unfold State.portWrite8; split <;> rfl
@[simp] theorem portWrite8_cfg (s : State) (p : Word) (v : Byte) : (s.portWrite8 p v).cfg = s.cfg := by unfold State.portWrite8; split <;> rfl
@[simp] theorem portWrite8_ext (s : State) (p : Word) (v : Byte) : (s.portWrite8 p v).ext = s.ext := by unfold State.portWrite8; split <;> rfl
@[simp] theorem portWrite8_cur (s : State) (p : Word) (v : Byte) : (s.portWrite8 p v).cur = s.cur := by unfold State.portWrite8; split <;> rfl
@[simp] theorem portWrite8_reg16 (s : State) (p : Word) (v : Byte) (q' : Reg16) : (s.portWrite8 p v).reg16 q' = s.reg16 q' := by unfold State.portWrite8; split <;> rfl
@[simp] theorem portWrite8_reg8 (s : State) (p : Word) (v : Byte) (q' : Reg8) : (s.portWrite8 p v).reg8 q' = s.reg8 q' := by unfold State.portWrite8; split <;> rfl
@[simp] theorem portWrite8_unset8 (s : State) (p : Word) (v : Byte) (q' : Reg8) : (s.portWrite8 p v).unset8 q' = s.unset8 q' := by unfold State.portWrite8; split <;> rfl
@[simp] theorem portWrite8_unset16 (s : State) (p : Word) (v : Byte) (q' : Reg16) : (s.portWrite8 p v).unset16 q' = s.unset16 q' := by unfold State.portWrite8; split <;> rfl
@[simp] theorem portWrite8_sreg (s : State) (p : Word) (v : Byte) (q' : SReg) : (s.portWrite8 p v).sreg q' = s.sreg q' := by unfold State.portWrite8; split <;> rfl
@[simp] theorem portWrite8_flag (s : State) (p : Word) (v : Byte) (q' : Flag) : (s.portWrite8 p v).flag q' = s.flag q' := by unfold State.portWrite8; split <;> rfl
@[simp] theorem portWrite8_readPlace (s : State) (p : Word) (v : Byte) (p' : Place) : (s.portWrite8 p v).readPlace p' = s.readPlace p' := by unfold State.portWrite8; split <;> rfl
@[simp] theorem portWrite8_unsetPlace (s : State) (p : Word) (v : Byte) (p' : Place) : (s.portWrite8 p v).unsetPlace p' = s.unsetPlace p' := by unfold State.portWrite8; split <;> rfl
@[simp] theorem portWrite8_eaOff (s : State) (p : Word) (v : Byte) (m' : Mem) : (s.portWrite8 p v).eaOff m' = s.eaOff m' := by unfold State.portWrite8; split <;> rfl
@[simp] theorem portWrite8_eaSeg (s : State) (p : Word) (v : Byte) (m' : Mem) : (s.portWrite8 p v).eaSeg m' = s.eaSeg m' := by unfold State.portWrite8; split <;> rfl
@[simp] theorem portWrite8_segOr (s : State) (p : Word) (v : Byte) (d' : SReg) : (s.portWrite8 p v).segOr d' = s.segOr d' := by unfold State.portWrite8; split <;> rfl
@[simp] theorem portWrite8_loc8 (s : State) (p : Word) (v : Byte) (e' : Rm8) : (s.portWrite8 p v).loc8 e' = s.loc8 e' := by unfold State.portWrite8; split <;> rfl
@[simp] theorem portWrite8_loc16 (s : State) (p : Word) (v : Byte) (e' : Rm16) : (s.portWrite8 p v).loc16 e' = s.loc16 e' := by unfold State.portWrite8; split <;> rfl
@[simp] theorem portWrite8_ipNext (s : State) (p : Word) (v : Byte) (i' : Instr) : (s.portWrite8 p v).ipNext i' = s.ipNext i' := by unfold State.portWrite8; split <;> rfl
@[simp] theorem portWrite8_delta (s : State) (p : Word) (v : Byte) (n' : Word) : (s.portWrite8 p v).delta n' = s.delta n' := by unfold State.portWrite8; split <;> rfl
@[simp] theorem portWrite8_portOwner (s : State) (p : Word) (v : Byte) (p' : Word) : (s.portWrite8 p v).portOwner p' = s.portOwner p' := by unfold State.portWrite8; split <;> rfl
@[simp] theorem portWrite8_shiftCount (s : State) (p : Word) (v : Byte) (c' : Byte) : (s.portWrite8 p v).shiftCount c' = s.shiftCount c' := by unfold State.portWrite8; split <;> rfl

@[simp] theorem portWrite16_regs (s : State) (p v : Word) : (s.portWrite16 p v).regs = s.regs := by simp [State.portWrite16]
@[simp] theorem portWrite16_unset (s : State) (p v : Word) : (s.portWrite16 p v).unset = s.unset := by simp [State.portWrite16]
@[simp] theorem portWrite16_segs (s : State) (p v : Word) : (s.portWrite16 p v).segs = s.segs := by simp [State.portWrite16]
@[simp] theorem portWrite16_ip (s : State) (p v : Word) : (s.portWrite16 p v).ip = s.ip := by simp [State.portWrite16]
@[simp] theorem portWrite16_flags (s : State) (p v : Word) : (s.portWrite16 p v).flags = s.flags := by simp [State.portWrite16]
@[simp] theorem portWrite16_halted (s : State) (p v : Word) : (s.portWrite16 p v).halted = s.halted := by simp [State.portWrite16]
@[simp] theorem portWrite16_shadow (s : State) (p v : Word) : (s.portWrite16 p v).shadow = s.shadow := by simp [State.portWrite16]
@[simp] theorem portWrite16_diag (s : State) (p v : Word) : (s.portWrite16 p v).diag = s.diag := by simp [State.portWrite16]
@[simp] theorem portWrite16_faults (s : State) (p v : Word) : (s.portWrite16 p v).faults = s.faults := by simp [State.portWrite16]
@[simp] theorem portWrite16_ram (s : State) (p v : Word) : (s.portWrite16 p v).ram = s.ram := by simp [State.portWrite16]
@[simp] theorem portWrite16_rom (s : State) (p v : Word) : (s.portWrite16 p v).rom = s.rom := by simp [State.portWrite16]
@[simp] theorem portWrite16_save (s : State) (p v : Word) : (s.portWrite16 p v).save = s.save := by simp [State.portWrite16]
@[simp] theorem portWrite16_rem (s : State) (p v : Word) : (s.portWrite16 p v).rem = s.rem := by simp [State.portWrite16]
@[simp] theorem portWrite16_elapsed (s : State) (p v : Word) : (s.portWrite16 p v).elapsed = s.elapsed := by simp [State.portWrite16]
@[simp] theorem portWrite16_mode (s : State) (p v : Word) : (s.portWrite16 p v).mode = s.mode := by simp [State.portWrite16]
@[simp] theorem portWrite16_samples (s : State) (p v : Word) : (s.portWrite16 p v).samples = s.samples := by simp [State.portWrite16]
@[simp] theorem portWrite16_raised (s : State) (p v : Word) : (s.portWrite16 p v).raised = s.raised := by simp [State.portWrite16]
@[simp] theorem portWrite16_trace (s : State) (p v : Word) : (s.portWrite16 p v).trace = s.trace := by simp [State.portWrite16]
@[simp] theorem portWrite16_input (s : State) (p v : Word) : (s.portWrite16 p v).input = s.input := by simp [State.portWrite16]
@[simp] theorem portWrite16_cfg (s : State) (p v : Word) : (s.portWrite16 p v).cfg = s.cfg := by simp [State.portWrite16]
@[simp] theorem portWrite16_ext (s : State) (p v : Word) : (s.portWrite16 p v).ext = s.ext := by simp [State.portWrite16]
@[simp] theorem portWrite16_cur (s : State) (p v : Word) : (s.portWrite16 p v).cur = s.cur := by simp [State.portWrite16]
@[simp] theorem portWrite16_reg16 (s : State) (p v : Word) (q' : Reg16) : (s.portWrite16 p v).reg16 q' = s.reg16 q' := by simp [State.portWrite16]
@[simp] theorem portWrite16_reg8 (s : State) (p v : Word) (q' : Reg8) : (s.portWrite16 p v).reg8 q' = s.reg8 q' := by simp [State.portWrite16]
@[simp] theorem portWrite16_unset8 (s : State) (p v : Word) (q' : Reg8) : (s.portWrite16 p v).unset8 q' = s.unset8 q' := by simp [State.portWrite16]
@[simp] theorem portWrite16_unset16 (s : State) (p v : Word) (q' : Reg16) : (s.portWrite16 p v).unset16 q' = s.unset16 q' := by simp [State.portWrite16]
@[simp] theorem portWrite16_sreg (s : State) (p v : Word) (q' : SReg) : (s.portWrite16 p v).sreg q' = s.sreg q' := by simp [State.portWrite16]
@[simp] theorem portWrite16_flag (s : State) (p v : Word) (q' : Flag) : (s.portWrite16 p v).flag q' = s.flag q' := by simp [State.portWrite16]
@[simp] theorem portWrite16_readPlace (s : State) (p v : Word) (p' : Place) : (s.portWrite16 p v).readPlace p' = s.readPlace p' := by simp [State.portWrite16]
@[simp] theorem portWrite16_unsetPlace (s : State) (p v : Word) (p' : Place) : (s.portWrite16 p v).unsetPlace p' = s.unsetPlace p' := by simp [State.portWrite16]
@[simp] theorem portWrite16_eaOff (s : State) (p v : Word) (m' : Mem) : (s.portWrite16 p v).eaOff m' = s.eaOff m' := by simp [State.portWrite16]
@[simp] theorem portWrite16_eaSeg (s : State) (p v : Word) (m' : Mem) : (s.portWrite16 p v).eaSeg m' = s.eaSeg m' := by simp [State.portWrite16]
@[simp] theorem portWrite16_segOr (s : State) (p v : Word) (d' : SReg) : (s.portWrite16 p v).segOr d' = s.segOr d' := by simp [State.portWrite16]
@[simp] theorem portWrite16_loc8 (s : State) (p v : Word) (e' : Rm8) : (s.portWrite16 p v).loc8 e' = s.loc8 e' := by simp [State.portWrite16]
@[simp] theorem portWrite16_loc16 (s : State) (p v : Word) (e' : Rm16) : (s.portWrite16 p v).loc16 e' = s.loc16 e' := by simp [State.portWrite16]
@[simp] theorem portWrite16_ipNext (s : State) (p v : Word) (i' : Instr) : (s.portWrite16 p v).ipNext i' = s.ipNext i' := by simp [State.portWrite16]
@[simp] theorem portWrite16_delta (s : State) (p v : Word) (n' : Word) : (s.portWrite16 p v).delta n' = s.delta n' := by simp [State.portWrite16]
@[simp] theorem portWrite16_portOwner (s : State) (p v : Word) (p' : Word) : (s.portWrite16 p v).portOwner p' = s.portOwner p' := by simp [State.portWrite16]
@[simp] theorem portWrite16_shiftCount (s : State) (p v : Word) (c' : Byte) : (s.portWrite16 p v).shiftCount c' = s.shiftCount c' := by simp [State.portWrite16]

@[simp] theorem push_segs (s : State) (v : Word) : (s.push v).segs = s.segs := by simp [State.push, State.note16]
@[simp] theorem push_ip (s : State) (v : Word) : (s.push v).ip = s.ip := by simp [State.push, State.note16]
@[simp] theorem push_flags (s : State) (v : Word) : (s.push v).flags = s.flags := by simp [State.push, State.note16]
@[simp] theorem push_halted (s : State) (v : Word) : (s.push v).halted = s.halted := by simp [State.push, State.note16]
@[simp] theorem push_shadow (s : State) (v : Word) : (s.push v).shadow = s.shadow := by simp [State.push, State.note16]
@[simp] theorem push_diag (s : State) (v : Word) : (s.push v).diag = s.diag := by simp [State.push, State.note16]
@[simp] theorem push_ic (s : State) (v : Word) : (s.push v).ic = s.ic := by simp [State.push, State.note16]
@[simp] theorem push_timers (s : State) (v : Word) : (s.push v).timers = s.timers := by simp [State.push, State.note16]
@[simp] theorem push_ppu (s : State) (v : Word) : (s.push v).ppu = s.ppu := by simp [State.push, State.note16]
@[simp] theorem push_apu (s : State) (v : Word) : (s.push v).apu = s.apu := by simp [State.push, State.note16]
@[simp] theorem push_banks (s : State) (v : Word) : (s.push v).banks = s.banks := by simp [State.push, State.note16]
@[simp] theorem push_rom (s : State) (v : Word) : (s.push v).rom = s.rom := by simp [State.push, State.note16]
@[simp] theorem push_rem (s : State) (v : Word) : (s.push v).rem = s.rem := by simp [State.push, State.note16]
@[simp] theorem push_elapsed (s : State) (v : Word) : (s.push v).elapsed = s.elapsed := by simp [State.push, State.note16]
@[simp] theorem push_mode (s : State) (v : Word) : (s.push v).mode = s.mode := by simp [State.push, State.note16]
@[simp] theorem push_samples (s : State) (v : Word) : (s.push v).samples = s.samples := by simp [State.push, State.note16]
@[simp] theorem push_raised (s : State) (v : Word) : (s.push v).raised = s.raised := by simp [State.push, State.note16]
@[simp] theorem push_trace (s : State) (v : Word) : (s.push v).trace = s.trace := by simp [State.push, State.note16]
@[simp] theorem push_input (s : State) (v : Word) : (s.push v).input = s.input := by simp [State.push, State.note16]
@[simp] theorem push_cfg (s : State) (v : Word) : (s.push v).cfg = s.cfg := by simp [State.push, State.note16]
@[simp] theorem push_ext (s : State) (v : Word) : (s.push v).ext = s.ext := by simp [State.push, State.note16]
@[simp] theorem push_cur (s : State) (v : Word) : (s.push v).cur = s.cur := by simp [State.push, State.note16]
@[simp] theorem push_save_size (s : State) (v : Word) : (s.push v).save.size = s.save.size := by simp [State.push, State.note16]
@[simp] theorem push_sreg (s : State) (v : Word) (q' : SReg) : (s.push v).sreg q' = s.sreg q' := by simp [State.push, State.note16]
@[simp] theorem push_flag (s : State) (v : Word) (q' : Flag) : (s.push v).flag q' = s.flag q' := by simp [State.push, State.note16]
@[simp] theorem push_locate (s : State) (v : Word) (a' : Phys) : (s.push v).locate a' = s.locate a' := by simp [State.push, State.note16]
@[simp] theorem push_eaSeg (s : State) (v : Word) (m' : Mem) : (s.push v).eaSeg m' = s.eaSeg m' := by simp [State.push, State.note16]
@[simp] theorem push_segOr (s : State) (v : Word) (d' : SReg) : (s.push v).segOr d' = s.segOr d' := by simp [State.push, State.note16]
@[simp] theorem push_ipNext (s : State) (v : Word) (i' : Instr) : (s.push v).ipNext i' = s.ipNext i' := by simp [State.push, State.note16]
@[simp] theorem push_delta (s : State) (v : Word) (n' : Word) : (s.push v).delta n' = s.delta n' := by simp [State.push, State.note16]
@[simp] theorem push_portOwner (s : State) (v : Word) (p' : Word) : (s.push v).portOwner p' = s.portOwner p' := by simp [State.push, State.note16]
@[simp] theorem push_portRead8 (s : State) (v : Word) (p' : Word) : (s.push v).portRead8 p' = s.portRead8 p' := by simp [State.push, State.note16]
@[simp] theorem push_highestPending (s : State) (v : Word)  : (s.push v).highestPending  = s.highestPending  := by simp [State.push, State.note16]
@[simp] theorem push_shiftCount (s : State) (v : Word) (c' : Byte) : (s.push v).shiftCount c' = s.shiftCount c' := by simp [State.push, State.note16]
@[simp] theorem push_timer (s : State) (v : Word) (j' : Nat) : (s.push v).timer j' = s.timer j' := by simp [State.push, State.note16]
@[simp] theorem push_channel (s : State) (v : Word) (j' : Nat) : (s.push v).channel j' = s.channel j' := by simp [State.push, State.note16]

@[simp] theorem drop_segs (s : State)  : s.drop.segs = s.segs := by simp [State.drop, State.note16, State.noteMem16]
@[simp] theorem drop_ip (s : State)  : s.drop.ip = s.ip := by simp [State.drop, State.note16, State.noteMem16]
@[simp] theorem drop_flags (s : State)  : s.drop.flags = s.flags := by simp [State.drop, State.note16, State.noteMem16]
@[simp] theorem drop_halted (s : State)  : s.drop.halted = s.halted := by simp [State.drop, State.note16, State.noteMem16]
@[simp] theorem drop_shadow (s : State)  : s.drop.shadow = s.shadow := by simp [State.drop, State.note16, State.noteMem16]
@[simp] theorem drop_diag (s : State)  : s.drop.diag = s.diag := by simp [State.drop, State.note16, State.noteMem16]
@[simp] theorem drop_ic (s : State)  : s.drop.ic = s.ic := by simp [State.drop, State.note16, State.noteMem16]
@[simp] theorem drop_timers (s : State)  : s.drop.timers = s.timers := by simp [State.drop, State.note16, State.noteMem16]
@[simp] theorem drop_ppu (s : State)  : s.drop.ppu = s.ppu := by simp [State.drop, State.note16, State.noteMem16]
@[simp] theorem drop_apu (s : State)  : s.drop.apu = s.apu := by simp [State.drop, State.note16, State.noteMem16]
@[simp] theorem drop_banks (s : State)  : s.drop.banks = s.banks := by simp [State.drop, State.note16, State.noteMem16]
@[simp] theorem drop_ram (s : State)  : s.drop.ram = s.ram := by simp [State.drop, State.note16, State.noteMem16]
@[simp] theorem drop_rom (s : State)  : s.drop.rom = s.rom := by simp [State.drop, State.note16, State.noteMem16]
@[simp] theorem drop_save (s : State)  : s.drop.save = s.save := by simp [State.drop, State.note16, State.noteMem16]
@[simp] theorem drop_rem (s : State)  : s.drop.rem = s.rem := by simp [State.drop, State.note16, State.noteMem16]
@[simp] theorem drop_elapsed (s : State)  : s.drop.elapsed = s.elapsed := by simp [State.drop, State.note16, State.noteMem16]
@[simp] theorem drop_mode (s : State)  : s.drop.mode = s.mode := by simp [State.drop, State.note16, State.noteMem16]
@[simp] theorem drop_samples (s : State)  : s.drop.samples = s.samples := by simp [State.drop, State.note16, State.noteMem16]
@[simp] theorem drop_raised (s : State)  : s.drop.raised = s.raised := by simp [State.drop, State.note16, State.noteMem16]
@[simp] theorem drop_trace (s : State)  : s.drop.trace = s.trace := by simp [State.drop, State.note16, State.noteMem16]
@[simp] theorem drop_input (s : State)  : s.drop.input = s.input := by simp [State.drop, State.note16, State.noteMem16]
@[simp] theorem drop_cfg (s : State)  : s.drop.cfg = s.cfg := by simp [State.drop, State.note16, State.noteMem16]
@[simp] theorem drop_ext (s : State)  : s.drop.ext = s.ext := by simp [State.drop, State.note16, State.noteMem16]
@[simp] theorem drop_cur (s : State)  : s.drop.cur = s.cur := by simp [State.drop, State.note16, State.noteMem16]
@[simp] theorem drop_sreg (s : State)  (q' : SReg) : s.drop.sreg q' = s.sreg q' := by simp [State.drop, State.note16, State.noteMem16]
@[simp] theorem drop_flag (s : State)  (q' : Flag) : s.drop.flag q' = s.flag q' := by simp [State.drop, State.note16, State.noteMem16]
@[simp] theorem drop_locate (s : State)  (a' : Phys) : s.drop.locate a' = s.locate a' := by simp [State.drop, State.note16, State.noteMem16]
@[simp] theorem drop_readPlace (s : State)  (p' : Place) : s.drop.readPlace p' = s.readPlace p' := by simp [State.drop, State.note16, State.noteMem16]
@[simp] theorem drop_busRead8 (s : State)  (a' : Phys) : s.drop.busRead8 a' = s.busRead8 a' := by simp [State.drop, State.note16, State.noteMem16]
@[simp] theorem drop_mem8 (s : State)  (sg' off' : Word) : s.drop.mem8 sg' off' = s.mem8 sg' off' := by simp [State.drop, State.note16, State.noteMem16]
@[simp] theorem drop_mem16 (s : State)  (sg' off' : Word) : s.drop.mem16 sg' off' = s.mem16 sg' off' := by simp [State.drop, State.note16, State.noteMem16]
@[simp] theorem drop_unsetPlace (s : State)  (p' : Place) : s.drop.unsetPlace p' = s.unsetPlace p' := by simp [State.drop, State.note16, State.noteMem16]
@[simp] theorem drop_unsetMem8 (s : State)  (sg' off' : Word) : s.drop.unsetMem8 sg' off' = s.unsetMem8 sg' off' := by simp [State.drop, State.note16, State.noteMem16]
@[simp] theorem drop_unsetMem16 (s : State)  (sg' off' : Word) : s.drop.unsetMem16 sg' off' = s.unsetMem16 sg' off' := by simp [State.drop, State.note16, State.noteMem16]
@[simp] theorem drop_eaSeg (s : State)  (m' : Mem) : s.drop.eaSeg m' = s.eaSeg m' := by simp [State.drop, State.note16, State.noteMem16]
@[simp] theorem drop_segOr (s : State)  (d' : SReg) : s.drop.segOr d' = s.segOr d' := by simp [State.drop, State.note16, State.noteMem16]
@[simp] theorem drop_ipNext (s : State)  (i' : Instr) : s.drop.ipNext i' = s.ipNext i' := by simp [State.drop, State.note16, State.noteMem16]
@[simp] theorem drop_delta (s : State)  (n' : Word) : s.drop.delta n' = s.delta n' := by simp [State.drop, State.note16, State.noteMem16]
@[simp] theorem drop_portOwner (s : State)  (p' : Word) : s.drop.portOwner p' = s.portOwner p' := by simp [State.drop, State.note16, State.noteMem16]
@[simp] theorem drop_portRead8 (s : State)  (p' : Word) : s.drop.portRead8 p' = s.portRead8 p' := by simp [State.drop, State.note16, State.noteMem16]
@[simp] theorem drop_highestPending (s : State)   : s.drop.highestPending  = s.highestPending  := by simp [State.drop, State.note16, State.noteMem16]
@[simp] theorem drop_shiftCount (s : State)  (c' : Byte) : s.drop.shiftCount c' = s.shiftCount c' := by simp [State.drop, State.note16, State.noteMem16]
@[simp] theorem drop_timer (s : State)  (j' : Nat) : s.drop.timer j' = s.timer j' := by simp [State.drop, State.note16, State.noteMem16]
@[simp] theorem drop_channel (s : State)  (j' : Nat) : s.drop.channel j' = s.channel j' := by simp [State.drop, State.note16, State.noteMem16]

/-- What the bus reads after a bus write (R103, R124). -/
@[simp] theorem busWrite8_busRead8 (s : State) (a c : Phys) (b : Byte) :
    (s.busWrite8 a b).busRead8 c =
      if s.locate c = s.locate a ∧ Place.writable (s.locate a) = true then b else s.busRead8 c := by
  have h := readPlace_writePlace s (s.locate a) (s.locate c) b
  simpa [State.busRead8, State.busWrite8] using h

@[simp] theorem writeMem8_busRead8 (s : State) (sg off : Word) (c : Phys) (b : Byte) :
    (s.writeMem8 sg off b).busRead8 c =
      if s.locate c = s.locate (phys sg off) ∧ Place.writable (s.locate (phys sg off)) = true then b
      else s.busRead8 c :=
  busWrite8_busRead8 s _ c b

/-- What the bus reads after a word write: the high byte is written last (R106). -/
@[simp] theorem writeMem16_busRead8 (s : State) (sg off v : Word) (c : Phys) :
    (s.writeMem16 sg off v).busRead8 c =
      if s.locate c = s.locate (phys sg (off + 1#16)) ∧ Place.writable (s.locate (phys sg (off + 1#16))) = true then
        hiByte v
      else if s.locate c = s.locate (phys sg off) ∧ Place.writable (s.locate (phys sg off)) = true then loByte v
      else s.busRead8 c := by
  simp only [State.writeMem16, writeMem8_busRead8, writeMem8_locate]

/-! ## The stack -/

/-- The registers after a push: SP is 2 lower (R206). -/
@[simp] theorem push_reg16 (s : State) (v : Word) (q : Reg16) :
    (s.push v).reg16 q = if q = .sp then s.reg16 .sp - 2#16 else s.reg16 q := by
  simp [State.push, State.note16]

/-- The memory after a push (R206). -/
theorem push_busRead8 (s : State) (v : Word) (c : Phys) :
    (s.push v).busRead8 c = (s.writeMem16 s.segs.ss (s.reg16 .sp - 2#16) v).busRead8 c := by
  simp only [State.push, State.note16, writeMem16_busRead8]
  rfl

/-- The registers after a pop: SP is 2 higher (R207). -/
@[simp] theorem drop_reg16 (s : State) (q : Reg16) :
    s.drop.reg16 q = if q = .sp then s.reg16 .sp + 2#16 else s.reg16 q := by
  simp [State.drop, State.note16, State.noteMem16]

end Sys2Proof.Machine
end

