-- ==== Sys2Proof/Laws/Flags.lean ====
section
/-! SUPPORT. What the flag computations do: one lemma per computation that says each flag it writes, in the terms of
Machine/Shapes.lean, and that it leaves the others. -/

namespace Sys2Proof.Machine

/-! ## Single flags -/

theorem flagBit_lt (f : Flag) : flagBit f < 16 := by cases f <;> decide

theorem flagBit_inj {f g : Flag} (h : flagBit f = flagBit g) : f = g := by
  cases f <;> cases g <;> first | rfl | (simp [flagBit] at h)

/-- Every bit of FLAGS after one flag is written. -/
theorem flagPut_getLsbD (fl : Word) (f : Flag) (b : Bool) (n : Nat) :
    (flagPut fl f b).getLsbD n = if n = flagBit f then b else fl.getLsbD n := by
  have hf := flagBit_lt f
  unfold flagPut
  cases b
  · by_cases h : n = flagBit f
    · subst h; simp [hf]
    · by_cases hn : n < 16
      · by_cases hlt : n < flagBit f
        · simp [h, hn, hlt]
        · have h1 : n - flagBit f ≠ 0 := by omega
          simp [h, hn, h1]
      · have : fl.getLsbD n = false := BitVec.getLsbD_of_ge _ _ (by omega)
        simp [h, this]
  · by_cases h : n = flagBit f
    · subst h; simp [hf]
    · by_cases hlt : n < flagBit f
      · simp [h, hlt]
      · have h1 : n - flagBit f ≠ 0 := by omega
        simp [h, h1]

/-- Every flag after one is written. -/
@[simp] theorem flagGet_flagPut (fl : Word) (f g : Flag) (b : Bool) :
    flagGet (flagPut fl f b) g = if g = f then b else flagGet fl g := by
  unfold flagGet
  rw [flagPut_getLsbD]
  by_cases h : g = f
  · simp [h]
  · simp [h, show flagBit g ≠ flagBit f from fun e => h (flagBit_inj e)]

theorem KeptFlags.rfl' (l : List Flag) (fl : Word) : KeptFlags l fl fl := fun _ _ => rfl

theorem KeptFlags.put {l : List Flag} {fl fl' : Word} (h : KeptFlags l fl fl') {f : Flag} (hf : f ∈ l) (b : Bool) :
    KeptFlags l fl (flagPut fl' f b) := by
  intro n hn
  rw [flagPut_getLsbD, if_neg (fun e => hn f hf e.symm)]
  exact h n hn

theorem KeptFlags.mono {l m : List Flag} {fl fl' : Word} (h : KeptFlags l fl fl') (hm : ∀ f ∈ l, f ∈ m) :
    KeptFlags m fl fl' := fun n hn => h n fun f hf => hn f (hm f hf)

/-- Free values are written to the listed flags only. -/
theorem KeptFlags.draw {l : List Flag} (op : Config.UndefOp) (w a b : Nat) (fl0 : Word) :
    ∀ (m : List Flag) {fl fl' : Word}, KeptFlags l fl fl' → (∀ f ∈ m, f ∈ l) →
      KeptFlags l fl (drawFlags op w a b fl0 m fl')
  | [], _, _, h, _ => h
  | f :: m, _, _, h, hm =>
    KeptFlags.draw op w a b fl0 m (h.put (hm f (List.mem_cons_self ..)) _) fun g hg => hm g (List.mem_cons_of_mem _ hg)

/-- A flag outside the drawn ones keeps its value. -/
theorem flagGet_drawFlags (op : Config.UndefOp) (w a b : Nat) (fl0 : Word) (g : Flag) :
    ∀ (m : List Flag) (fl : Word), g ∉ m → flagGet (drawFlags op w a b fl0 m fl) g = flagGet fl g
  | [], _, _ => rfl
  | f :: m, fl, h => by
    have h1 : g ≠ f := fun e => h (by simp [e])
    have h2 : g ∉ m := fun e => h (List.mem_cons_of_mem _ e)
    rw [drawFlags, flagGet_drawFlags op w a b fl0 g m _ h2, flagGet_flagPut, if_neg h1]

/-! ## SF, ZF and PF -/

theorem parity_eq (b : Byte) : parity b = evenParity b := by
  simp only [parity, evenParity]
  revert b
  decide

theorem evenParity_setWidth {w : Nat} (x : BitVec w) : evenParity (x.setWidth 8) = evenParity x := by
  unfold evenParity
  congr 2
  apply List.countP_congr
  intro k hk
  have : k < 8 := List.mem_range.mp hk
  simp [this]

/-- `setSZP` writes SF, ZF and PF of the result, and keeps the other flags. -/
theorem flagGet_setSZP {w : Nat} (fl : Word) (res : BitVec w) (g : Flag) :
    flagGet (setSZP fl res) g =
      match g with
      | .sf => res.getLsbD (w - 1)
      | .zf => decide (res.toNat = 0)
      | .pf => evenParity res
      | g => flagGet fl g := by
  have hz : (res = 0#w) ↔ res.toNat = 0 := by simp [BitVec.toNat_eq]
  cases g <;> simp [setSZP, parity_eq, evenParity_setWidth, BitVec.msb_eq_getLsbD_last, hz]

theorem szpOf_setSZP {w : Nat} (fl : Word) (res : BitVec w) : SzpOf res (setSZP fl res) := by
  simp [SzpOf, flagGet_setSZP]

theorem KeptFlags.szp {l : List Flag} {w : Nat} {fl fl' : Word} (h : KeptFlags l fl fl') (res : BitVec w)
    (hs : Flag.sf ∈ l) (hz : Flag.zf ∈ l) (hp : Flag.pf ∈ l) : KeptFlags l fl (setSZP fl' res) :=
  ((h.put hs _).put hz _).put hp _

/-- SF, ZF and PF stay as they are under updates of other flags. -/
theorem SzpOf.of_eq {w : Nat} {res : BitVec w} {fl fl' : Word} (h : SzpOf res fl)
    (hs : flagGet fl' .sf = flagGet fl .sf) (hz : flagGet fl' .zf = flagGet fl .zf)
    (hp : flagGet fl' .pf = flagGet fl .pf) : SzpOf res fl' := by
  unfold SzpOf at *; rw [hs, hz, hp]; exact h

/-! ## Addition and subtraction -/

theorem addRes_toNat {w : Nat} (a b : BitVec w) (c : Bool) :
    (addRes a b c).toNat = (a.toNat + b.toNat + c.toNat) % 2 ^ w := by simp [addRes]

theorem subRes_toNat {w : Nat} (a b : BitVec w) (c : Bool) :
    ((subRes a b c).toNat : Int) = ((a.toNat : Int) - b.toNat - c.toNat) % 2 ^ w := by
  simp only [subRes, subInt, BitVec.toNat_ofInt]
  rw [Int.toNat_of_nonneg (Int.emod_nonneg _ (by positivity))]
  push_cast
  rfl

theorem addRes_eq {w : Nat} (a b : BitVec w) (c : Bool) : addRes a b c = a + b + BitVec.setWidth w (BitVec.ofBool c) := by
  apply BitVec.eq_of_toNat_eq
  rw [addRes_toNat]
  cases c <;> simp

/-- The carry into bit 4 of a sum. -/
theorem add_bit4 {w : Nat} (hw : 4 < w) (a b : BitVec w) (c : Bool) :
    (a ^^^ b ^^^ addRes a b c).getLsbD 4 = decide (16 ≤ a.toNat % 16 + b.toNat % 16 + c.toNat) := by
  rw [addRes_eq, BitVec.getLsbD_xor, BitVec.getLsbD_xor, BitVec.getLsbD_add_add_bool hw]
  have : BitVec.carry 4 a b c = decide (16 ≤ a.toNat % 16 + b.toNat % 16 + c.toNat) := by
    simp [BitVec.carry, ge_iff_le]
  rw [this]
  cases a.getLsbD 4 <;> cases b.getLsbD 4 <;> simp

theorem getLsbD_of_toNat_mod {w : Nat} (x : BitVec w) (k m : Nat) (hk : k < m) : x.getLsbD k = (x.toNat % 2 ^ m).testBit k := by
  rw [Nat.testBit_mod_two_pow]; simp [hk, BitVec.testBit_toNat]

/-- A subtraction with its operands as an addition: `a = res + b + c`. -/
theorem addRes_subRes {w : Nat} (a b : BitVec w) (c : Bool) : addRes (subRes a b c) b c = a := by
  apply BitVec.eq_of_toNat_eq
  have h : ((subRes a b c).toNat : Int) = _ := subRes_toNat a b c
  have ha := a.isLt
  have e : (((subRes a b c).toNat + b.toNat + c.toNat : Nat) : Int) % (2 ^ w : Nat) = (a.toNat : Int) := by
    push_cast
    rw [h]
    have : ((↑a.toNat - ↑b.toNat - ↑c.toNat : Int) % 2 ^ w + b.toNat + c.toNat) % 2 ^ w = (a.toNat : Int) % 2 ^ w := by
      rw [Int.add_assoc, Int.emod_add_emod]; congr 1; ring
    rw [this]
    exact Int.emod_eq_of_lt (by omega) (by exact_mod_cast ha)
  rw [addRes_toNat]
  exact_mod_cast e

/-- The borrow into bit 3 of a difference. -/
theorem sub_bit4 {w : Nat} (hw : 4 < w) (a b : BitVec w) (c : Bool) :
    (a ^^^ b ^^^ subRes a b c).getLsbD 4 = decide (a.toNat % 16 < b.toNat % 16 + c.toNat) := by
  have h := add_bit4 hw (subRes a b c) b c
  rw [addRes_subRes] at h
  have hx : (a ^^^ b ^^^ subRes a b c) = (subRes a b c ^^^ b ^^^ a) := by
    rw [BitVec.xor_comm a b, BitVec.xor_comm (subRes a b c) b, BitVec.xor_assoc, BitVec.xor_assoc, BitVec.xor_comm a]
  rw [hx, h]
  have hm : a.toNat % 16 = ((subRes a b c).toNat + b.toNat + c.toNat) % 16 := by
    have e := congrArg BitVec.toNat (addRes_subRes a b c)
    rw [addRes_toNat] at e
    rw [← e, Nat.mod_mod_of_dvd]
    exact pow_dvd_pow 2 (show 4 ≤ w by omega)
  have hc : c.toNat ≤ 1 := by cases c <;> simp
  apply decide_eq_decide.mpr
  omega

/-- OF of an addition: the exact signed sum does not fit. -/
theorem add_overflow {w : Nat} (hw : 0 < w) (a b : BitVec w) (c : Bool) :
    ((a ^^^ addRes a b c) &&& (b ^^^ addRes a b c)).msb = overflows w (a.toInt + b.toInt + c.toNat) := by
  obtain ⟨k, rfl⟩ : ∃ k, w = k + 1 := ⟨w - 1, by omega⟩
  have hr := addRes_toNat a b c
  have ha := a.isLt
  have hb := b.isLt
  have hc : c.toNat ≤ 1 := by cases c <;> simp
  rw [BitVec.msb_and, BitVec.msb_xor, BitVec.msb_xor]
  simp only [BitVec.msb_eq_decide, overflows, BitVec.toInt_eq_toNat_cond]
  simp only [Nat.add_sub_cancel, Nat.pow_succ] at *
  generalize (addRes a b c).toNat = r at *
  generalize a.toNat = x at *
  generalize b.toNat = y at *
  generalize c.toNat = z at *
  obtain ⟨P, hP⟩ : ∃ P, P = 2 ^ k := ⟨_, rfl⟩
  have hpow : ((2 : Int) ^ k) = (P : Int) := by rw [hP]; push_cast; rfl
  simp only [hpow, ← hP] at *
  clear hP hpow
  have hr2 : r = x + y + z ∧ x + y + z < P * 2 ∨ r + P * 2 = x + y + z ∧ P * 2 ≤ x + y + z := by
    by_cases h : x + y + z < P * 2
    · left; exact ⟨by rw [hr, Nat.mod_eq_of_lt h], h⟩
    · right
      refine ⟨?_, by omega⟩
      rw [hr, Nat.mod_eq_sub_mod (by omega), Nat.mod_eq_of_lt (by omega)]; omega
  rw [Bool.eq_iff_iff]
  simp only [Bool.and_eq_true, bne_iff_ne, ne_eq, decide_eq_decide, decide_eq_true_eq]
  by_cases h1 : 2 * x < P * 2 <;> by_cases h2 : 2 * y < P * 2 <;> simp only [h1, h2, if_true, if_false] <;> push_cast <;> omega

/-- OF of a subtraction: the exact signed difference does not fit. -/
theorem sub_overflow {w : Nat} (hw : 0 < w) (a b : BitVec w) (c : Bool) :
    ((a ^^^ b) &&& (a ^^^ subRes a b c)).msb = overflows w (a.toInt - b.toInt - c.toNat) := by
  have hr := congrArg BitVec.toNat (addRes_subRes a b c)
  rw [addRes_toNat] at hr
  obtain ⟨k, rfl⟩ : ∃ k, w = k + 1 := ⟨w - 1, by omega⟩
  have ha := a.isLt
  have hb := b.isLt
  have hrr := (subRes a b c).isLt
  have hc : c.toNat ≤ 1 := by cases c <;> simp
  rw [BitVec.msb_and, BitVec.msb_xor, BitVec.msb_xor]
  simp only [BitVec.msb_eq_decide, overflows, BitVec.toInt_eq_toNat_cond]
  simp only [Nat.add_sub_cancel, Nat.pow_succ] at *
  generalize (subRes a b c).toNat = r at *
  generalize a.toNat = x at *
  generalize b.toNat = y at *
  generalize c.toNat = z at *
  obtain ⟨P, hP⟩ : ∃ P, P = 2 ^ k := ⟨_, rfl⟩
  have hpow : ((2 : Int) ^ k) = (P : Int) := by rw [hP]; push_cast; rfl
  simp only [hpow, ← hP] at *
  clear hP hpow
  have hr2 : x = r + y + z ∧ r + y + z < P * 2 ∨ x + P * 2 = r + y + z ∧ P * 2 ≤ r + y + z := by
    by_cases h : r + y + z < P * 2
    · left; exact ⟨by rw [← hr, Nat.mod_eq_of_lt h], h⟩
    · right
      refine ⟨?_, by omega⟩
      rw [← hr, Nat.mod_eq_sub_mod (by omega), Nat.mod_eq_of_lt (by omega)]; omega
  rw [Bool.eq_iff_iff]
  simp only [Bool.and_eq_true, bne_iff_ne, ne_eq, decide_eq_decide, decide_eq_true_eq]
  by_cases h1 : 2 * x < P * 2 <;> by_cases h2 : 2 * y < P * 2 <;> simp only [h1, h2, if_true, if_false] <;> push_cast <;> omega

/-- Everything the flags of an addition are (R260). -/
theorem addFlags_spec {w : Nat} (hw : 4 < w) (a b : BitVec w) (c : Bool) (fl : Word) :
    SumOf a b c (addRes a b c) fl (addFlags a b c fl)
      ∧ flagGet (addFlags a b c fl) .cf = decide (2 ^ w ≤ a.toNat + b.toNat + c.toNat) := by
  refine ⟨⟨addRes_toNat a b c, ?_, ?_, szpOf_setSZP _ _, ?_⟩, ?_⟩
  · simp [addFlags, flagGet_setSZP, add_bit4 hw]
  · simp only [addFlags, flagGet_setSZP, flagGet_flagPut, if_true]
    exact add_overflow (by omega) a b c
  · exact ((((KeptFlags.rfl' _ _).put (by decide) _).put (by decide) _).put (by decide) _).szp _ (by decide) (by decide)
      (by decide)
  · simp [addFlags, flagGet_setSZP]

/-- Everything the flags of a subtraction are (R260). -/
theorem subFlags_spec {w : Nat} (hw : 4 < w) (a b : BitVec w) (c : Bool) (fl : Word) :
    DifferenceOf a b c (subRes a b c) fl (subFlags a b c fl)
      ∧ flagGet (subFlags a b c fl) .cf = decide (a.toNat < b.toNat + c.toNat) := by
  refine ⟨⟨subRes_toNat a b c, ?_, ?_, szpOf_setSZP _ _, ?_⟩, ?_⟩
  · simp [subFlags, flagGet_setSZP, sub_bit4 hw]
  · simp only [subFlags, flagGet_setSZP, flagGet_flagPut, if_true]
    exact sub_overflow (by omega) a b c
  · exact ((((KeptFlags.rfl' _ _).put (by decide) _).put (by decide) _).put (by decide) _).szp _ (by decide) (by decide)
      (by decide)
  · simp only [subFlags, flagGet_setSZP, flagGet_flagPut, subInt]
    have : ((a.toNat : Int) - b.toNat - c.toNat < 0) ↔ a.toNat < b.toNat + c.toNat := by omega
    simp [this]

/-- Everything the flags of a logical result are (R320). -/
theorem logicFlags_spec {w : Nat} (op : Config.UndefOp) (a b res : BitVec w) (fl : Word) :
    LogicFlagsOf res fl (logicFlags op a b res fl) := by
  refine ⟨?_, ?_, (szpOf_setSZP (flagPut (flagPut fl .cf false) .of false) res).of_eq ?_ ?_ ?_, ?_⟩
  all_goals first
    | (unfold logicFlags; rw [flagGet_drawFlags _ _ _ _ _ _ _ _ (by decide)]; try simp [flagGet_setSZP])
    | skip
  exact KeptFlags.draw _ _ _ _ _ _ ((((KeptFlags.rfl' _ _).put (by decide) _).put (by decide) _).szp _ (by decide)
    (by decide) (by decide)) (by decide)

/-- Everything the flags of a multiplication are (R271-R273). -/
theorem mulFlags_spec (op : Config.UndefOp) (w a b : Nat) (big : Bool) (fl : Word) :
    MulFlagsOf big fl (mulFlags op w a b big fl) := by
  refine ⟨?_, ?_, ?_⟩
  · unfold mulFlags; rw [flagGet_drawFlags _ _ _ _ _ _ _ _ (by decide)]; simp
  · unfold mulFlags; rw [flagGet_drawFlags _ _ _ _ _ _ _ _ (by decide)]; simp
  · exact KeptFlags.draw _ _ _ _ _ _ (((KeptFlags.rfl' _ _).put (by decide) _).put (by decide) _) (by decide)

/-- The flags of a division: the six arithmetic flags are free values, the others are kept (R274, R275). -/
theorem divFlags_spec (op : Config.UndefOp) (w a b : Nat) (fl : Word) : KeptFlags arithFlags fl (divFlags op w a b fl) :=
  KeptFlags.draw _ _ _ _ _ _ (KeptFlags.rfl' _ _) (by decide)

/-! ## Increment and decrement -/

theorem incFlags_spec {w : Nat} (hw : 4 < w) (a : BitVec w) (fl : Word) :
    Incremented a (addRes a 1#w false) fl (incFlags a fl) := by
  obtain ⟨⟨h1, h2, h3, h4, h5⟩, _⟩ := addFlags_spec hw a 1#w false fl
  refine ⟨⟨h1, by simpa [incFlags] using h2, by simpa [incFlags] using h3, h4.of_eq ?_ ?_ ?_, h5.put (by decide) _⟩, ?_⟩
  all_goals simp [incFlags]

theorem decFlags_spec {w : Nat} (hw : 4 < w) (a : BitVec w) (fl : Word) :
    Decremented a (subRes a 1#w false) fl (decFlags a fl) := by
  obtain ⟨⟨h1, h2, h3, h4, h5⟩, _⟩ := subFlags_spec hw a 1#w false fl
  refine ⟨⟨h1, by simpa [decFlags] using h2, by simpa [decFlags] using h3, h4.of_eq ?_ ?_ ?_, h5.put (by decide) _⟩, ?_⟩
  all_goals simp [decFlags]

end Sys2Proof.Machine
end

