-- ==== Sys2Proof/Laws/Operands.lean ====
section
/-! SUPPORT. What the operand writes do, in the terms of Machine/Shapes.lean, and the frame of an instruction that falls
through. -/

namespace Sys2Proof.Machine

/-! ## Unset storage bytes -/

theorem find?_eq_none_iff (m : Memory) (i : Nat) : Memory.find? m i = none ↔ ∀ c ∈ m, c.1 ≠ i := by
  induction m with
  | nil => simp [Memory.find?]
  | cons c m ih =>
    by_cases h : c.1 = i
    · simp [Memory.find?, h]
    · simp [Memory.find?, h, ih]

/-- What a read of a storage byte records, in the terms of Machine/Shapes.lean. -/
theorem unsetPlace_eq (s : State) (p : Place) : s.unsetPlace p = placeReads s p := by
  cases p with
  | ram i =>
    have h := find?_eq_none_iff s.ram i
    by_cases hf : Memory.find? s.ram i = none
    · cases hr : s.cfg.resetRam
      · rw [placeReads, if_pos ⟨hr, h.1 hf⟩]
        simp [State.unsetPlace, ramUnlisted, hr, hf]
      · rw [placeReads, if_neg fun k => by simp [hr] at k]
        simp [State.unsetPlace, ramUnlisted, hr]
    · have hn : ¬∀ c ∈ s.ram, c.1 ≠ i := fun k => hf (h.2 k)
      rw [placeReads, if_neg fun k => hn k.2]
      simp [State.unsetPlace, hf]
  | save i => rfl
  | rom i => rfl
  | openBus => rfl

/-- What is recorded after a write: nothing of the byte written, the others as before (R53). -/
theorem placeReads_writePlace (s : State) (p q : Place) (b : Byte) :
    placeReads (s.writePlace p b) q = if q = p ∧ q.writable = true then [] else placeReads s q := by
  simp only [← unsetPlace_eq]
  cases p with
  | ram i =>
    cases q with
    | ram j =>
      by_cases h : j = i
      · subst h
        unfold State.unsetPlace State.writePlace ramUnlisted
        cases s.cfg.resetRam <;> simp [Place.writable, Memory.put, find?_set_self]
      · simp [State.unsetPlace, State.writePlace, h, find?_put_ne _ _ _ h]
    | save j => simp [State.unsetPlace]
    | rom j => simp [State.unsetPlace]
    | openBus => simp [State.unsetPlace]
  | save i => cases q <;> simp [State.unsetPlace, State.writePlace]
  | rom i => cases q <;> simp [State.unsetPlace, State.writePlace]
  | openBus => cases q <;> simp [State.unsetPlace, State.writePlace]

/-- A read after a write, the condition on the byte read. -/
theorem readPlace_writePlace' (s : State) (p q : Place) (b : Byte) :
    (s.writePlace p b).readPlace q = if q = p ∧ q.writable = true then b else s.readPlace q := by
  rw [readPlace_writePlace]
  by_cases h : q = p
  · subst h; rfl
  · simp [h]

/-! ## What is left alone -/

/-- A state that differs from `s` in no register, no memory and nothing that a memory access depends on. -/
structure Untouched (s u : State) : Prop where
  regs : u.regs = s.regs
  unset : u.unset = s.unset
  ram : u.ram = s.ram
  rom : u.rom = s.rom
  save : u.save = s.save
  banks : u.banks = s.banks
  cfg : u.cfg = s.cfg
  ext : u.ext = s.ext

theorem locate_congr {s u : State} (h1 : u.cfg = s.cfg) (h2 : u.banks = s.banks) (h3 : u.rom = s.rom)
    (h4 : u.save.size = s.save.size) (a : Phys) : u.locate a = s.locate a := by
  simp [State.locate, State.romPlace, h1, h2, h3, h4]

/-- Two states with the same memories and the same mapping of addresses. -/
structure SameStores (s u : State) : Prop where
  ram : u.ram = s.ram
  rom : u.rom = s.rom
  save : u.save = s.save
  banks : u.banks = s.banks
  cfg : u.cfg = s.cfg
  ext : u.ext = s.ext

namespace SameStores

theorem rfl' (s : State) : SameStores s s := by constructor <;> rfl

theorem trans {s u v : State} (h : SameStores s u) (k : SameStores u v) : SameStores s v :=
  ⟨k.ram.trans h.ram, k.rom.trans h.rom, k.save.trans h.save, k.banks.trans h.banks, k.cfg.trans h.cfg, k.ext.trans h.ext⟩

theorem symm {s u : State} (h : SameStores s u) : SameStores u s :=
  ⟨h.ram.symm, h.rom.symm, h.save.symm, h.banks.symm, h.cfg.symm, h.ext.symm⟩

theorem locate {s u : State} (h : SameStores s u) (a : Phys) : u.locate a = s.locate a :=
  locate_congr h.cfg h.banks h.rom (by rw [h.save]) a

theorem busRead8 {s u : State} (h : SameStores s u) (a : Phys) : u.busRead8 a = s.busRead8 a := by
  unfold State.busRead8
  rw [h.locate]
  cases s.locate a <;> simp [State.readPlace, ramDefault, h.ram, h.rom, h.save, h.cfg, h.ext]

theorem sameMem {s u : State} (h : SameStores s u) : SameMem s u where
  reads := h.busRead8
  places p := by cases p <;> simp [State.readPlace, ramDefault, h.ram, h.rom, h.save, h.cfg, h.ext]
  marks p := by
    simp only [← unsetPlace_eq]
    cases p <;> simp [State.unsetPlace, h.ram, h.cfg]

end SameStores

theorem Untouched.stores {s u : State} (h : Untouched s u) : SameStores s u :=
  ⟨h.ram, h.rom, h.save, h.banks, h.cfg, h.ext⟩

namespace Untouched

theorem locate {s u : State} (h : Untouched s u) (a : Phys) : u.locate a = s.locate a :=
  locate_congr h.cfg h.banks h.rom (by rw [h.save]) a

theorem busRead8 {s u : State} (h : Untouched s u) (a : Phys) : u.busRead8 a = s.busRead8 a := by
  unfold State.busRead8
  rw [h.locate]
  cases s.locate a <;> simp [State.readPlace, ramDefault, h.ram, h.rom, h.save, h.cfg, h.ext]

theorem reg16 {s u : State} (h : Untouched s u) (r : Reg16) : u.reg16 r = s.reg16 r := by
  simp [State.reg16, h.regs]

theorem reg8 {s u : State} (h : Untouched s u) (r : Reg8) : u.reg8 r = s.reg8 r := by
  simp [State.reg8, h.reg16]

theorem sameRegs {s u : State} (h : Untouched s u) (l : List Reg16) : SameRegsBut l s u :=
  fun r _ => ⟨h.reg16 r, by rw [h.unset]⟩

theorem readPlace {s u : State} (h : Untouched s u) (p : Place) : u.readPlace p = s.readPlace p := h.stores.sameMem.places p

theorem placeReads {s u : State} (h : Untouched s u) (p : Place) : placeReads u p = placeReads s p := h.stores.sameMem.marks p

theorem sameMem {s u : State} (h : Untouched s u) : SameMem s u := h.stores.sameMem

end Untouched

theorem SameRegsBut.mono {l m : List Reg16} {s t : State} (h : SameRegsBut l s t) (hm : ∀ r ∈ l, r ∈ m) :
    SameRegsBut m s t := fun r hr => h r fun hl => hr (hm r hl)

theorem SameRegsBut.trans {l : List Reg16} {s t u : State} (h : SameRegsBut l s t) (h' : SameRegsBut l t u) :
    SameRegsBut l s u := fun r hr => ⟨(h' r hr).1.trans (h r hr).1, (h' r hr).2.trans (h r hr).2⟩

theorem SameMem.trans {s t u : State} (h : SameMem s t) (h' : SameMem t u) : SameMem s u :=
  ⟨fun a => (h'.reads a).trans (h.reads a), fun p => (h'.places p).trans (h.places p), fun p => (h'.marks p).trans (h.marks p)⟩

/-- A write of an 8-bit register. -/
theorem setByteReg_setReg8 {s u : State} (h : Untouched s u) (r : Reg8) (v : Byte) : SetByteReg s (u.setReg8 r v) r v := by
  refine ⟨fun q => by simp [h.reg8], fun q hq => ?_⟩
  have : q ≠ Reg8.parent r := fun e => hq (by simp [e])
  simp [this, h.reg16, h.unset]

/-- A write of a 16-bit register. -/
theorem setWordReg_setReg16 {s u : State} (h : Untouched s u) (r : Reg16) (v : Word) : SetWordReg s (u.setReg16 r v) r v := by
  refine ⟨by simp, fun q hq => ?_⟩
  have : q ≠ r := fun e => hq (by simp [e])
  simp [this, h.reg16, h.unset]

theorem stored8_writeMem8 {s u : State} (h : Untouched s u) (sg off : Word) (v : Byte) :
    Stored8 s (u.writeMem8 sg off v) sg off v where
  reads a := by simp only [writeMem8_busRead8, h.locate, h.busRead8]
  places p := by simp only [State.writeMem8, State.busWrite8, readPlace_writePlace', h.locate, h.readPlace]
  marks p := by simp only [State.writeMem8, State.busWrite8, placeReads_writePlace, h.locate, h.placeReads]

theorem stored16_writeMem16 {s u : State} (h : Untouched s u) (sg off v : Word) :
    Stored16 s (u.writeMem16 sg off v) sg off v where
  reads a := by simp only [writeMem16_busRead8, h.locate, h.busRead8]
  places p := by
    simp only [State.writeMem16, State.writeMem8, State.busWrite8, readPlace_writePlace', writePlace_locate, h.locate,
      h.readPlace]
  marks p := by
    simp only [State.writeMem16, State.writeMem8, State.busWrite8, placeReads_writePlace, writePlace_locate, h.locate,
      h.placeReads]
    split <;> rename_i h1
    · simp [h1.1, h1.1 ▸ h1.2]
    · split <;> rename_i h2
      · rw [if_pos ⟨.inr h2.1, h2.2⟩]
      · rw [if_neg fun h3 => h3.1.elim (fun e => h1 ⟨e, h3.2⟩) fun e => h2 ⟨e, h3.2⟩]

/-- What is stored stays stored under an update of other fields. -/
theorem Stored8.of_same {s t u : State} {sg off : Word} {v : Byte} (h : Stored8 s t sg off v) (k : SameMem t u) :
    Stored8 s u sg off v :=
  ⟨fun a => (k.reads a).trans (h.reads a), fun p => (k.places p).trans (h.places p), fun p => (k.marks p).trans (h.marks p)⟩

/-- What is stored stays stored under an update of other fields. -/
theorem Stored16.of_same {s t u : State} {sg off v : Word} (h : Stored16 s t sg off v) (k : SameMem t u) :
    Stored16 s u sg off v :=
  ⟨fun a => (k.reads a).trans (h.reads a), fun p => (k.places p).trans (h.places p), fun p => (k.marks p).trans (h.marks p)⟩

theorem untouched_setReg8_mem {s u : State} (h : Untouched s u) (r : Reg8) (v : Byte) : SameMem s (u.setReg8 r v) :=
  h.sameMem.trans (SameStores.sameMem (by constructor <;> simp))

theorem untouched_setReg16_mem {s u : State} (h : Untouched s u) (r : Reg16) (v : Word) : SameMem s (u.setReg16 r v) :=
  h.sameMem.trans (SameStores.sameMem (by constructor <;> simp))

/-- A write of E of width 8, its location resolved in `s` (R18). -/
theorem wrote8_write8 {s u : State} (h : Untouched s u) (e : Rm8) (v : Byte) : Wrote8 s (u.write8 (s.loc8 e) v) e v := by
  cases e with
  | reg r => exact ⟨setByteReg_setReg8 h r v, untouched_setReg8_mem h r v⟩
  | mem m =>
    exact ⟨fun q _ => by simp [State.loc8, State.write8, State.reg16, h.regs, h.unset], stored8_writeMem8 h _ _ v⟩

/-- A write of E of width 16, its location resolved in `s` (R18). -/
theorem wrote16_write16 {s u : State} (h : Untouched s u) (e : Rm16) (v : Word) : Wrote16 s (u.write16 (s.loc16 e) v) e v := by
  cases e with
  | reg r => exact ⟨setWordReg_setReg16 h r v, untouched_setReg16_mem h r v⟩
  | mem m =>
    exact ⟨fun q _ => by simp [State.loc16, State.write16, State.reg16, h.regs, h.unset], stored16_writeMem16 h _ _ v⟩

/-- What is written stays written under an update of other fields. -/
theorem Wrote8.of_untouched {s t u : State} {e : Rm8} {v : Byte} (h : Wrote8 s t e v) (hu : Untouched t u) :
    Wrote8 s u e v := by
  cases e with
  | reg r => exact ⟨⟨fun q => by rw [hu.reg8]; exact h.1.1 q, h.1.2.trans (hu.sameRegs _)⟩, h.2.trans hu.sameMem⟩
  | mem m => exact ⟨h.1.trans (hu.sameRegs _), h.2.of_same hu.sameMem⟩

/-- What is written stays written under an update of other fields. -/
theorem Wrote16.of_untouched {s t u : State} {e : Rm16} {v : Word} (h : Wrote16 s t e v) (hu : Untouched t u) :
    Wrote16 s u e v := by
  cases e with
  | reg r => exact ⟨⟨by rw [hu.reg16]; exact h.1.1, h.1.2.trans (hu.sameRegs _)⟩, h.2.trans hu.sameMem⟩
  | mem m => exact ⟨h.1.trans (hu.sameRegs _), h.2.of_same hu.sameMem⟩

theorem untouched_record (s : State) (l : List FaultRecord) : Untouched s (s.record l) := by constructor <;> rfl

theorem untouched_flags (s : State) (l : List FaultRecord) (fl : Word) : Untouched s ((s.record l).setFlags fl) := by
  constructor <;> rfl

theorem untouched_setIp (s : State) (v : Word) : Untouched s (s.setIp v) := by constructor <;> rfl

theorem untouched_setFlags (s : State) (fl : Word) : Untouched s (s.setFlags fl) := by constructor <;> rfl

/-- The frame of an instruction that falls through. -/
theorem plain_of_record {s : State} {i : Instr} (l : List FaultRecord) : Plain i s ((s.record l).advance i) := by
  exact ⟨⟨by constructor <;> simp, by simp, by simp, by simp, by simp⟩, by simp, by simp⟩

/-- The frame of an instruction that writes flags and E of width 8. -/
theorem plain_write8 (s : State) (i : Instr) (l : List FaultRecord) (fl : Word) (p : Loc8) (v : Byte) :
    Plain i s ((((s.record l).setFlags fl).write8 p v).advance i) := by
  exact ⟨⟨by constructor <;> simp, by simp, by simp, by simp, by simp⟩, by simp, by simp⟩

/-- The frame of an instruction that writes flags and E of width 16. -/
theorem plain_write16 (s : State) (i : Instr) (l : List FaultRecord) (fl : Word) (p : Loc16) (v : Word) :
    Plain i s ((((s.record l).setFlags fl).write16 p v).advance i) := by
  exact ⟨⟨by constructor <;> simp, by simp, by simp, by simp, by simp⟩, by simp, by simp⟩

/-- The frame of an instruction that writes flags only. -/
theorem plain_flags (s : State) (i : Instr) (l : List FaultRecord) (fl : Word) :
    Plain i s (((s.record l).setFlags fl).advance i) := by
  exact ⟨⟨by constructor <;> simp, by simp, by simp, by simp, by simp⟩, by simp, by simp⟩

/-- E of width 8 and the flags are written, and the instruction falls through. -/
theorem wrote8_advance (s : State) (i : Instr) (l : List FaultRecord) (fl : Word) (e : Rm8) (v : Byte) :
    Wrote8 s ((((s.record l).setFlags fl).write8 (s.loc8 e) v).advance i) e v :=
  (wrote8_write8 (untouched_flags s l fl) e v).of_untouched (untouched_setIp _ _)

/-- E of width 16 and the flags are written, and the instruction falls through. -/
theorem wrote16_advance (s : State) (i : Instr) (l : List FaultRecord) (fl : Word) (e : Rm16) (v : Word) :
    Wrote16 s ((((s.record l).setFlags fl).write16 (s.loc16 e) v).advance i) e v :=
  (wrote16_write16 (untouched_flags s l fl) e v).of_untouched (untouched_setIp _ _)

end Sys2Proof.Machine
end

