-- ==== Sys2Proof/Laws/Alu.lean ====
section
/-! SUPPORT. What the arithmetic and logic operations of Machine/Patterns.lean do: one lemma per operation that says all of
it, in the terms of Machine/Shapes.lean. -/

namespace Sys2Proof.Machine

/-- ADD and ADC of width 8: the operation `op` adds with carry `c`. -/
theorem alu8_adds (s : State) (i : Instr) (op : AluOp) (e : Rm8) (src : Src8) (c : Bool)
    (ho : op ≠ .cmp) (hr : ∀ a b : Byte, aluRes op a b s.flags = addRes a b c)
    (hf : ∀ a b : Byte, aluFlags op a b s.flags = addFlags a b c s.flags)
    (hx : exec i s = .next ((s.alu8 op e src).advance i)) : Adds8 s i e (s.src8 src) c := by
  refine ⟨_, hx, ?_⟩
  simp only [State.alu8, State.fetchPair8, if_neg ho, hr, hf]
  have h := addFlags_spec (by omega) (s.rm8 e) (s.src8 src) c s.flags
  exact ⟨plain_write8 .., _, wrote8_advance .., by simpa using h.1, by simpa using h.2⟩

/-- ADD and ADC of width 16. -/
theorem alu16_adds (s : State) (i : Instr) (op : AluOp) (e : Rm16) (src : Src16) (c : Bool)
    (ho : op ≠ .cmp) (hr : ∀ a b : Word, aluRes op a b s.flags = addRes a b c)
    (hf : ∀ a b : Word, aluFlags op a b s.flags = addFlags a b c s.flags)
    (hx : exec i s = .next ((s.alu16 op e src).advance i)) : Adds16 s i e (s.src16 src) c := by
  refine ⟨_, hx, ?_⟩
  simp only [State.alu16, State.fetchPair16, if_neg ho, hr, hf]
  have h := addFlags_spec (by omega) (s.rm16 e) (s.src16 src) c s.flags
  exact ⟨plain_write16 .., _, wrote16_advance .., by simpa using h.1, by simpa using h.2⟩

/-- SUB and SBB of width 8. -/
theorem alu8_subs (s : State) (i : Instr) (op : AluOp) (e : Rm8) (src : Src8) (c : Bool)
    (ho : op ≠ .cmp) (hr : ∀ a b : Byte, aluRes op a b s.flags = subRes a b c)
    (hf : ∀ a b : Byte, aluFlags op a b s.flags = subFlags a b c s.flags)
    (hx : exec i s = .next ((s.alu8 op e src).advance i)) : Subs8 s i e (s.src8 src) c := by
  refine ⟨_, hx, ?_⟩
  simp only [State.alu8, State.fetchPair8, if_neg ho, hr, hf]
  have h := subFlags_spec (by omega) (s.rm8 e) (s.src8 src) c s.flags
  exact ⟨plain_write8 .., _, wrote8_advance .., by simpa using h.1, by simpa using h.2⟩

/-- SUB and SBB of width 16. -/
theorem alu16_subs (s : State) (i : Instr) (op : AluOp) (e : Rm16) (src : Src16) (c : Bool)
    (ho : op ≠ .cmp) (hr : ∀ a b : Word, aluRes op a b s.flags = subRes a b c)
    (hf : ∀ a b : Word, aluFlags op a b s.flags = subFlags a b c s.flags)
    (hx : exec i s = .next ((s.alu16 op e src).advance i)) : Subs16 s i e (s.src16 src) c := by
  refine ⟨_, hx, ?_⟩
  simp only [State.alu16, State.fetchPair16, if_neg ho, hr, hf]
  have h := subFlags_spec (by omega) (s.rm16 e) (s.src16 src) c s.flags
  exact ⟨plain_write16 .., _, wrote16_advance .., by simpa using h.1, by simpa using h.2⟩

theorem sameRegs_flags (s : State) (l : List FaultRecord) (fl : Word) (v : Word) :
    SameRegsBut [] s (((s.record l).setFlags fl).setIp v) := fun r _ => by simp

theorem sameMem_flags (s : State) (l : List FaultRecord) (fl : Word) (v : Word) :
    SameMem s (((s.record l).setFlags fl).setIp v) :=
  SameStores.sameMem (by constructor <;> simp)

/-- CMP of width 8. -/
theorem alu8_compares (s : State) (i : Instr) (e : Rm8) (src : Src8)
    (hx : exec i s = .next ((s.alu8 .cmp e src).advance i)) : Compares s i (s.rm8 e) (s.src8 src) := by
  refine ⟨_, hx, ?_⟩
  have h := subFlags_spec (by omega) (s.rm8 e) (s.src8 src) false s.flags
  exact ⟨plain_flags .., sameRegs_flags _ _ _ _, sameMem_flags _ _ _ _, ⟨_, by simpa [State.alu8, State.fetchPair8, aluFlags] using h.1⟩,
    by simpa [State.alu8, State.fetchPair8, aluFlags] using h.2⟩

/-- CMP of width 16. -/
theorem alu16_compares (s : State) (i : Instr) (e : Rm16) (src : Src16)
    (hx : exec i s = .next ((s.alu16 .cmp e src).advance i)) : Compares s i (s.rm16 e) (s.src16 src) := by
  refine ⟨_, hx, ?_⟩
  have h := subFlags_spec (by omega) (s.rm16 e) (s.src16 src) false s.flags
  exact ⟨plain_flags .., sameRegs_flags _ _ _ _, sameMem_flags _ _ _ _, ⟨_, by simpa [State.alu16, State.fetchPair16, aluFlags] using h.1⟩,
    by simpa [State.alu16, State.fetchPair16, aluFlags] using h.2⟩

/-- AND, OR and XOR of width 8. -/
theorem alu8_logic (s : State) (i : Instr) (op : AluOp) (u : Config.UndefOp) (e : Rm8) (src : Src8) (ho : op ≠ .cmp)
    (hf : ∀ a b : Byte, aluFlags op a b s.flags = logicFlags u a b (aluRes op a b s.flags) s.flags)
    (hx : exec i s = .next ((s.alu8 op e src).advance i)) :
    Logic8 s i e (aluRes op (s.rm8 e) (s.src8 src) s.flags) := by
  refine ⟨_, hx, ?_⟩
  simp only [State.alu8, State.fetchPair8, if_neg ho, hf]
  exact ⟨plain_write8 .., wrote8_advance .., by simpa using logicFlags_spec u _ _ _ s.flags⟩

/-- AND, OR and XOR of width 16. -/
theorem alu16_logic (s : State) (i : Instr) (op : AluOp) (u : Config.UndefOp) (e : Rm16) (src : Src16) (ho : op ≠ .cmp)
    (hf : ∀ a b : Word, aluFlags op a b s.flags = logicFlags u a b (aluRes op a b s.flags) s.flags)
    (hx : exec i s = .next ((s.alu16 op e src).advance i)) :
    Logic16 s i e (aluRes op (s.rm16 e) (s.src16 src) s.flags) := by
  refine ⟨_, hx, ?_⟩
  simp only [State.alu16, State.fetchPair16, if_neg ho, hf]
  exact ⟨plain_write16 .., wrote16_advance .., by simpa using logicFlags_spec u _ _ _ s.flags⟩

/-- TEST of width 8. -/
theorem test8_tests (s : State) (i : Instr) (e : Rm8) (src : Src8)
    (hx : exec i s = .next ((s.test8 e src).advance i)) : Tests s i (s.rm8 e &&& s.src8 src) :=
  ⟨_, hx, plain_flags .., sameRegs_flags _ _ _ _, sameMem_flags _ _ _ _, by
    simpa [State.test8, State.fetchPair8] using logicFlags_spec .test (s.rm8 e) (s.src8 src) _ s.flags⟩

/-- TEST of width 16. -/
theorem test16_tests (s : State) (i : Instr) (e : Rm16) (src : Src16)
    (hx : exec i s = .next ((s.test16 e src).advance i)) : Tests s i (s.rm16 e &&& s.src16 src) :=
  ⟨_, hx, plain_flags .., sameRegs_flags _ _ _ _, sameMem_flags _ _ _ _, by
    simpa [State.test16, State.fetchPair16] using logicFlags_spec .test (s.rm16 e) (s.src16 src) _ s.flags⟩

theorem fetch8_eq (s : State) (e : Rm8) : s.fetch8 e = s.record (s.unsetAddr8 e ++ s.unsetLoc8 (s.loc8 e)) := by
  have h : ∀ l, (s.record l).unsetLoc8 (s.loc8 e) = s.unsetLoc8 (s.loc8 e) := fun l => by
    cases e <;> simp [State.unsetLoc8, State.loc8]
  simp only [State.fetch8, State.resolve8, State.noteLoc8, h, record_record]

theorem fetch16_eq (s : State) (e : Rm16) : s.fetch16 e = s.record (s.unsetAddr16 e ++ s.unsetLoc16 (s.loc16 e)) := by
  have h : ∀ l, (s.record l).unsetLoc16 (s.loc16 e) = s.unsetLoc16 (s.loc16 e) := fun l => by
    cases e <;> simp [State.unsetLoc16, State.loc16]
  simp only [State.fetch16, State.resolve16, State.noteLoc16, h, record_record]

/-- INC, DEC, NEG and NOT of width 8. -/
theorem unary8_spec (s : State) (i : Instr) (f : Byte → Byte) (g : Byte → Word → Word) (e : Rm8)
    {P : Byte → Byte → Word → Word → Prop} (hp : ∀ a, P a (f a) s.flags (g a s.flags))
    (hx : exec i s = .next ((s.unary8 f g e).advance i)) : Unary8 s i e P := by
  refine ⟨_, hx, ?_⟩
  simp only [State.unary8, fetch8_eq]
  exact ⟨plain_write8 .., _, wrote8_advance .., by simpa using hp (s.rm8 e)⟩

/-- INC, DEC, NEG and NOT of width 16. -/
theorem unary16_spec (s : State) (i : Instr) (f : Word → Word) (g : Word → Word → Word) (e : Rm16)
    {P : Word → Word → Word → Word → Prop} (hp : ∀ a, P a (f a) s.flags (g a s.flags))
    (hx : exec i s = .next ((s.unary16 f g e).advance i)) : Unary16 s i e P := by
  refine ⟨_, hx, ?_⟩
  simp only [State.unary16, fetch16_eq]
  exact ⟨plain_write16 .., _, wrote16_advance .., by simpa using hp (s.rm16 e)⟩

/-- NEG's value and flags. -/
theorem neg_spec {w : Nat} (hw : 4 < w) (a : BitVec w) (fl : Word) :
    Negated a (subRes 0#w a false) fl (subFlags 0#w a false fl) := by
  have h := subFlags_spec hw 0#w a false fl
  refine ⟨h.1, ?_⟩
  rw [h.2]
  apply decide_eq_decide.mpr
  simp
  omega

/-- NOT's value. -/
theorem not8_spec (a : Byte) (fl : Word) : Complemented a (a ^^^ 0xFF#8) fl fl := ⟨BitVec.xor_allOnes, rfl⟩

/-- NOT's value. -/
theorem not16_spec (a : Word) (fl : Word) : Complemented a (a ^^^ 0xFFFF#16) fl fl := ⟨BitVec.xor_allOnes, rfl⟩

end Sys2Proof.Machine
end

