-- ==== Sys2Proof/Laws/PerInstr.lean ====
section
/-! SUPPORT. The family `Length`: an encoding is one to six bytes (30_encoding.md R151, R178), one lemma per constructor. -/

namespace Sys2Proof.Laws.Length

/-- The encoding of the instruction has at least one byte and at most `maxLen`. -/
def Statement (i : Instr) : Prop := 1 ≤ i.len ∧ i.len ≤ maxLen

theorem of_bytes {i : Instr} {bs : List Byte} (h : encode i = bs) (h1 : 1 ≤ bs.length) (h2 : bs.length ≤ 6) :
    Statement i := by
  rw [Statement, Instr.len, h]
  exact ⟨h1, h2⟩

theorem mem_le (reg : BitVec 3) (m : Mem) : (encodeMem reg m).length ≤ 3 := by
  rcases m with _ | ⟨b, _ | _ | _⟩ <;> simp [encodeMem, wordBytes]

theorem e8_le (reg : BitVec 3) (e : Rm8) : (encodeE8 reg e).length ≤ 3 := by
  cases e with
  | reg r => simp [encodeE8]
  | mem m => exact mem_le reg m

theorem e16_le (reg : BitVec 3) (e : Rm16) : (encodeE16 reg e).length ≤ 3 := by
  cases e with
  | reg r => simp [encodeE16]
  | mem m => exact mem_le reg m

theorem of_mem {i : Instr} {b : Byte} {reg : BitVec 3} {m : Mem} (h : encode i = b :: encodeMem reg m) : Statement i :=
  of_bytes h (by simp) (by have := mem_le reg m; simp; omega)

theorem of_e8 {i : Instr} {b : Byte} {reg : BitVec 3} {e : Rm8} (h : encode i = b :: encodeE8 reg e) : Statement i :=
  of_bytes h (by simp) (by have := e8_le reg e; simp; omega)

theorem of_e16 {i : Instr} {b : Byte} {reg : BitVec 3} {e : Rm16} (h : encode i = b :: encodeE16 reg e) : Statement i :=
  of_bytes h (by simp) (by have := e16_le reg e; simp; omega)

theorem of_e8_byte {i : Instr} {b v : Byte} {reg : BitVec 3} {e : Rm8} (h : encode i = b :: (encodeE8 reg e ++ [v])) :
    Statement i :=
  of_bytes h (by simp) (by have := e8_le reg e; simp; omega)

theorem of_e16_byte {i : Instr} {b v : Byte} {reg : BitVec 3} {e : Rm16} (h : encode i = b :: (encodeE16 reg e ++ [v])) :
    Statement i :=
  of_bytes h (by simp) (by have := e16_le reg e; simp; omega)

theorem of_e16_word {i : Instr} {b : Byte} {v : Word} {reg : BitVec 3} {e : Rm16}
    (h : encode i = b :: (encodeE16 reg e ++ wordBytes v)) : Statement i :=
  of_bytes h (by simp) (by have := e16_le reg e; simp [wordBytes]; omega)

theorem addEbGb (e : Rm8) (g : Reg8) : Statement (.addEbGb e g) := of_e8 rfl

theorem addEvGv (e : Rm16) (g : Reg16) : Statement (.addEvGv e g) := of_e16 rfl

theorem addGbEb (g : Reg8) (e : Rm8) : Statement (.addGbEb g e) := of_e8 rfl

theorem addGvEv (g : Reg16) (e : Rm16) : Statement (.addGvEv g e) := of_e16 rfl

theorem addAlIb (i : Byte) : Statement (.addAlIb i) :=
  of_bytes rfl (Nat.le_of_ble_eq_true rfl) (Nat.le_of_ble_eq_true rfl)

theorem addAxIw (i : Word) : Statement (.addAxIw i) :=
  of_bytes rfl (Nat.le_of_ble_eq_true rfl) (Nat.le_of_ble_eq_true rfl)

theorem addEbIb (e : Rm8) (i : Byte) : Statement (.addEbIb e i) := of_e8_byte rfl

theorem addEvIw (e : Rm16) (i : Word) : Statement (.addEvIw e i) := of_e16_word rfl

theorem addEbIbAlias (e : Rm8) (i : Byte) : Statement (.addEbIbAlias e i) := of_e8_byte rfl

theorem addEvIbs (e : Rm16) (i : Byte) : Statement (.addEvIbs e i) := of_e16_byte rfl

theorem orEbGb (e : Rm8) (g : Reg8) : Statement (.orEbGb e g) := of_e8 rfl

theorem orEvGv (e : Rm16) (g : Reg16) : Statement (.orEvGv e g) := of_e16 rfl

theorem orGbEb (g : Reg8) (e : Rm8) : Statement (.orGbEb g e) := of_e8 rfl

theorem orGvEv (g : Reg16) (e : Rm16) : Statement (.orGvEv g e) := of_e16 rfl

theorem orAlIb (i : Byte) : Statement (.orAlIb i) :=
  of_bytes rfl (Nat.le_of_ble_eq_true rfl) (Nat.le_of_ble_eq_true rfl)

theorem orAxIw (i : Word) : Statement (.orAxIw i) :=
  of_bytes rfl (Nat.le_of_ble_eq_true rfl) (Nat.le_of_ble_eq_true rfl)

theorem orEbIb (e : Rm8) (i : Byte) : Statement (.orEbIb e i) := of_e8_byte rfl

theorem orEvIw (e : Rm16) (i : Word) : Statement (.orEvIw e i) := of_e16_word rfl

theorem orEbIbAlias (e : Rm8) (i : Byte) : Statement (.orEbIbAlias e i) := of_e8_byte rfl

theorem orEvIbs (e : Rm16) (i : Byte) : Statement (.orEvIbs e i) := of_e16_byte rfl

theorem adcEbGb (e : Rm8) (g : Reg8) : Statement (.adcEbGb e g) := of_e8 rfl

theorem adcEvGv (e : Rm16) (g : Reg16) : Statement (.adcEvGv e g) := of_e16 rfl

theorem adcGbEb (g : Reg8) (e : Rm8) : Statement (.adcGbEb g e) := of_e8 rfl

theorem adcGvEv (g : Reg16) (e : Rm16) : Statement (.adcGvEv g e) := of_e16 rfl

theorem adcAlIb (i : Byte) : Statement (.adcAlIb i) :=
  of_bytes rfl (Nat.le_of_ble_eq_true rfl) (Nat.le_of_ble_eq_true rfl)

theorem adcAxIw (i : Word) : Statement (.adcAxIw i) :=
  of_bytes rfl (Nat.le_of_ble_eq_true rfl) (Nat.le_of_ble_eq_true rfl)

theorem adcEbIb (e : Rm8) (i : Byte) : Statement (.adcEbIb e i) := of_e8_byte rfl

theorem adcEvIw (e : Rm16) (i : Word) : Statement (.adcEvIw e i) := of_e16_word rfl

theorem adcEbIbAlias (e : Rm8) (i : Byte) : Statement (.adcEbIbAlias e i) := of_e8_byte rfl

theorem adcEvIbs (e : Rm16) (i : Byte) : Statement (.adcEvIbs e i) := of_e16_byte rfl

theorem sbbEbGb (e : Rm8) (g : Reg8) : Statement (.sbbEbGb e g) := of_e8 rfl

theorem sbbEvGv (e : Rm16) (g : Reg16) : Statement (.sbbEvGv e g) := of_e16 rfl

theorem sbbGbEb (g : Reg8) (e : Rm8) : Statement (.sbbGbEb g e) := of_e8 rfl

theorem sbbGvEv (g : Reg16) (e : Rm16) : Statement (.sbbGvEv g e) := of_e16 rfl

theorem sbbAlIb (i : Byte) : Statement (.sbbAlIb i) :=
  of_bytes rfl (Nat.le_of_ble_eq_true rfl) (Nat.le_of_ble_eq_true rfl)

theorem sbbAxIw (i : Word) : Statement (.sbbAxIw i) :=
  of_bytes rfl (Nat.le_of_ble_eq_true rfl) (Nat.le_of_ble_eq_true rfl)

theorem sbbEbIb (e : Rm8) (i : Byte) : Statement (.sbbEbIb e i) := of_e8_byte rfl

theorem sbbEvIw (e : Rm16) (i : Word) : Statement (.sbbEvIw e i) := of_e16_word rfl

theorem sbbEbIbAlias (e : Rm8) (i : Byte) : Statement (.sbbEbIbAlias e i) := of_e8_byte rfl

theorem sbbEvIbs (e : Rm16) (i : Byte) : Statement (.sbbEvIbs e i) := of_e16_byte rfl

theorem andEbGb (e : Rm8) (g : Reg8) : Statement (.andEbGb e g) := of_e8 rfl

theorem andEvGv (e : Rm16) (g : Reg16) : Statement (.andEvGv e g) := of_e16 rfl

theorem andGbEb (g : Reg8) (e : Rm8) : Statement (.andGbEb g e) := of_e8 rfl

theorem andGvEv (g : Reg16) (e : Rm16) : Statement (.andGvEv g e) := of_e16 rfl

theorem andAlIb (i : Byte) : Statement (.andAlIb i) :=
  of_bytes rfl (Nat.le_of_ble_eq_true rfl) (Nat.le_of_ble_eq_true rfl)

theorem andAxIw (i : Word) : Statement (.andAxIw i) :=
  of_bytes rfl (Nat.le_of_ble_eq_true rfl) (Nat.le_of_ble_eq_true rfl)

theorem andEbIb (e : Rm8) (i : Byte) : Statement (.andEbIb e i) := of_e8_byte rfl

theorem andEvIw (e : Rm16) (i : Word) : Statement (.andEvIw e i) := of_e16_word rfl

theorem andEbIbAlias (e : Rm8) (i : Byte) : Statement (.andEbIbAlias e i) := of_e8_byte rfl

theorem andEvIbs (e : Rm16) (i : Byte) : Statement (.andEvIbs e i) := of_e16_byte rfl

theorem subEbGb (e : Rm8) (g : Reg8) : Statement (.subEbGb e g) := of_e8 rfl

theorem subEvGv (e : Rm16) (g : Reg16) : Statement (.subEvGv e g) := of_e16 rfl

theorem subGbEb (g : Reg8) (e : Rm8) : Statement (.subGbEb g e) := of_e8 rfl

theorem subGvEv (g : Reg16) (e : Rm16) : Statement (.subGvEv g e) := of_e16 rfl

theorem subAlIb (i : Byte) : Statement (.subAlIb i) :=
  of_bytes rfl (Nat.le_of_ble_eq_true rfl) (Nat.le_of_ble_eq_true rfl)

theorem subAxIw (i : Word) : Statement (.subAxIw i) :=
  of_bytes rfl (Nat.le_of_ble_eq_true rfl) (Nat.le_of_ble_eq_true rfl)

theorem subEbIb (e : Rm8) (i : Byte) : Statement (.subEbIb e i) := of_e8_byte rfl

theorem subEvIw (e : Rm16) (i : Word) : Statement (.subEvIw e i) := of_e16_word rfl

theorem subEbIbAlias (e : Rm8) (i : Byte) : Statement (.subEbIbAlias e i) := of_e8_byte rfl

theorem subEvIbs (e : Rm16) (i : Byte) : Statement (.subEvIbs e i) := of_e16_byte rfl

theorem xorEbGb (e : Rm8) (g : Reg8) : Statement (.xorEbGb e g) := of_e8 rfl

theorem xorEvGv (e : Rm16) (g : Reg16) : Statement (.xorEvGv e g) := of_e16 rfl

theorem xorGbEb (g : Reg8) (e : Rm8) : Statement (.xorGbEb g e) := of_e8 rfl

theorem xorGvEv (g : Reg16) (e : Rm16) : Statement (.xorGvEv g e) := of_e16 rfl

theorem xorAlIb (i : Byte) : Statement (.xorAlIb i) :=
  of_bytes rfl (Nat.le_of_ble_eq_true rfl) (Nat.le_of_ble_eq_true rfl)

theorem xorAxIw (i : Word) : Statement (.xorAxIw i) :=
  of_bytes rfl (Nat.le_of_ble_eq_true rfl) (Nat.le_of_ble_eq_true rfl)

theorem xorEbIb (e : Rm8) (i : Byte) : Statement (.xorEbIb e i) := of_e8_byte rfl

theorem xorEvIw (e : Rm16) (i : Word) : Statement (.xorEvIw e i) := of_e16_word rfl

theorem xorEbIbAlias (e : Rm8) (i : Byte) : Statement (.xorEbIbAlias e i) := of_e8_byte rfl

theorem xorEvIbs (e : Rm16) (i : Byte) : Statement (.xorEvIbs e i) := of_e16_byte rfl

theorem cmpEbGb (e : Rm8) (g : Reg8) : Statement (.cmpEbGb e g) := of_e8 rfl

theorem cmpEvGv (e : Rm16) (g : Reg16) : Statement (.cmpEvGv e g) := of_e16 rfl

theorem cmpGbEb (g : Reg8) (e : Rm8) : Statement (.cmpGbEb g e) := of_e8 rfl

theorem cmpGvEv (g : Reg16) (e : Rm16) : Statement (.cmpGvEv g e) := of_e16 rfl

theorem cmpAlIb (i : Byte) : Statement (.cmpAlIb i) :=
  of_bytes rfl (Nat.le_of_ble_eq_true rfl) (Nat.le_of_ble_eq_true rfl)

theorem cmpAxIw (i : Word) : Statement (.cmpAxIw i) :=
  of_bytes rfl (Nat.le_of_ble_eq_true rfl) (Nat.le_of_ble_eq_true rfl)

theorem cmpEbIb (e : Rm8) (i : Byte) : Statement (.cmpEbIb e i) := of_e8_byte rfl

theorem cmpEvIw (e : Rm16) (i : Word) : Statement (.cmpEvIw e i) := of_e16_word rfl

theorem cmpEbIbAlias (e : Rm8) (i : Byte) : Statement (.cmpEbIbAlias e i) := of_e8_byte rfl

theorem cmpEvIbs (e : Rm16) (i : Byte) : Statement (.cmpEvIbs e i) := of_e16_byte rfl

theorem incR16 (r : Reg16) : Statement (.incR16 r) :=
  of_bytes rfl (Nat.le_of_ble_eq_true rfl) (Nat.le_of_ble_eq_true rfl)

theorem decR16 (r : Reg16) : Statement (.decR16 r) :=
  of_bytes rfl (Nat.le_of_ble_eq_true rfl) (Nat.le_of_ble_eq_true rfl)

theorem pushR16 (r : Reg16) : Statement (.pushR16 r) :=
  of_bytes rfl (Nat.le_of_ble_eq_true rfl) (Nat.le_of_ble_eq_true rfl)

theorem popR16 (r : Reg16) : Statement (.popR16 r) :=
  of_bytes rfl (Nat.le_of_ble_eq_true rfl) (Nat.le_of_ble_eq_true rfl)

theorem boundGvMa (g : Reg16) (m : Mem) : Statement (.boundGvMa g m) := of_mem rfl

theorem pushIw (i : Word) : Statement (.pushIw i) :=
  of_bytes rfl (Nat.le_of_ble_eq_true rfl) (Nat.le_of_ble_eq_true rfl)

theorem imulGvEvIw (g : Reg16) (e : Rm16) (i : Word) : Statement (.imulGvEvIw g e i) := of_e16_word rfl

theorem pushIbs (i : Byte) : Statement (.pushIbs i) :=
  of_bytes rfl (Nat.le_of_ble_eq_true rfl) (Nat.le_of_ble_eq_true rfl)

theorem imulGvEvIbs (g : Reg16) (e : Rm16) (i : Byte) : Statement (.imulGvEvIbs g e i) := of_e16_byte rfl

theorem joRel8 (rel : Byte) : Statement (.joRel8 rel) :=
  of_bytes rfl (Nat.le_of_ble_eq_true rfl) (Nat.le_of_ble_eq_true rfl)

theorem jnoRel8 (rel : Byte) : Statement (.jnoRel8 rel) :=
  of_bytes rfl (Nat.le_of_ble_eq_true rfl) (Nat.le_of_ble_eq_true rfl)

theorem jbRel8 (rel : Byte) : Statement (.jbRel8 rel) :=
  of_bytes rfl (Nat.le_of_ble_eq_true rfl) (Nat.le_of_ble_eq_true rfl)

theorem jnbRel8 (rel : Byte) : Statement (.jnbRel8 rel) :=
  of_bytes rfl (Nat.le_of_ble_eq_true rfl) (Nat.le_of_ble_eq_true rfl)

theorem jzRel8 (rel : Byte) : Statement (.jzRel8 rel) :=
  of_bytes rfl (Nat.le_of_ble_eq_true rfl) (Nat.le_of_ble_eq_true rfl)

theorem jnzRel8 (rel : Byte) : Statement (.jnzRel8 rel) :=
  of_bytes rfl (Nat.le_of_ble_eq_true rfl) (Nat.le_of_ble_eq_true rfl)

theorem jbeRel8 (rel : Byte) : Statement (.jbeRel8 rel) :=
  of_bytes rfl (Nat.le_of_ble_eq_true rfl) (Nat.le_of_ble_eq_true rfl)

theorem jaRel8 (rel : Byte) : Statement (.jaRel8 rel) :=
  of_bytes rfl (Nat.le_of_ble_eq_true rfl) (Nat.le_of_ble_eq_true rfl)

theorem jsRel8 (rel : Byte) : Statement (.jsRel8 rel) :=
  of_bytes rfl (Nat.le_of_ble_eq_true rfl) (Nat.le_of_ble_eq_true rfl)

theorem jnsRel8 (rel : Byte) : Statement (.jnsRel8 rel) :=
  of_bytes rfl (Nat.le_of_ble_eq_true rfl) (Nat.le_of_ble_eq_true rfl)

theorem jpRel8 (rel : Byte) : Statement (.jpRel8 rel) :=
  of_bytes rfl (Nat.le_of_ble_eq_true rfl) (Nat.le_of_ble_eq_true rfl)

theorem jnpRel8 (rel : Byte) : Statement (.jnpRel8 rel) :=
  of_bytes rfl (Nat.le_of_ble_eq_true rfl) (Nat.le_of_ble_eq_true rfl)

theorem jlRel8 (rel : Byte) : Statement (.jlRel8 rel) :=
  of_bytes rfl (Nat.le_of_ble_eq_true rfl) (Nat.le_of_ble_eq_true rfl)

theorem jgeRel8 (rel : Byte) : Statement (.jgeRel8 rel) :=
  of_bytes rfl (Nat.le_of_ble_eq_true rfl) (Nat.le_of_ble_eq_true rfl)

theorem jleRel8 (rel : Byte) : Statement (.jleRel8 rel) :=
  of_bytes rfl (Nat.le_of_ble_eq_true rfl) (Nat.le_of_ble_eq_true rfl)

theorem jgRel8 (rel : Byte) : Statement (.jgRel8 rel) :=
  of_bytes rfl (Nat.le_of_ble_eq_true rfl) (Nat.le_of_ble_eq_true rfl)

theorem testEbGb (e : Rm8) (g : Reg8) : Statement (.testEbGb e g) := of_e8 rfl

theorem testEvGv (e : Rm16) (g : Reg16) : Statement (.testEvGv e g) := of_e16 rfl

theorem xchgEbGb (e : Rm8) (g : Reg8) : Statement (.xchgEbGb e g) := of_e8 rfl

theorem xchgEvGv (e : Rm16) (g : Reg16) : Statement (.xchgEvGv e g) := of_e16 rfl

theorem movEbGb (e : Rm8) (g : Reg8) : Statement (.movEbGb e g) := of_e8 rfl

theorem movEvGv (e : Rm16) (g : Reg16) : Statement (.movEvGv e g) := of_e16 rfl

theorem movGbEb (g : Reg8) (e : Rm8) : Statement (.movGbEb g e) := of_e8 rfl

theorem movGvEv (g : Reg16) (e : Rm16) : Statement (.movGvEv g e) := of_e16 rfl

theorem movEwEs (e : Rm16) : Statement (.movEwEs e) := of_e16 rfl

theorem movEwCs (e : Rm16) : Statement (.movEwCs e) := of_e16 rfl

theorem movEwSs (e : Rm16) : Statement (.movEwSs e) := of_e16 rfl

theorem movEwDs (e : Rm16) : Statement (.movEwDs e) := of_e16 rfl

theorem leaGvM (g : Reg16) (m : Mem) : Statement (.leaGvM g m) := of_mem rfl

theorem movEsEw (e : Rm16) : Statement (.movEsEw e) := of_e16 rfl

theorem movSsEw (e : Rm16) : Statement (.movSsEw e) := of_e16 rfl

theorem movDsEw (e : Rm16) : Statement (.movDsEw e) := of_e16 rfl

theorem popEv (e : Rm16) : Statement (.popEv e) := of_e16 rfl

theorem xchgR16Ax (r : Reg16) : Statement (.xchgR16Ax r) :=
  of_bytes rfl (Nat.le_of_ble_eq_true rfl) (Nat.le_of_ble_eq_true rfl)

theorem callAp (off : Word) (sg : Word) : Statement (.callAp off sg) :=
  of_bytes rfl (Nat.le_of_ble_eq_true rfl) (Nat.le_of_ble_eq_true rfl)

theorem movAlOb (o : Word) : Statement (.movAlOb o) :=
  of_bytes rfl (Nat.le_of_ble_eq_true rfl) (Nat.le_of_ble_eq_true rfl)

theorem movAxOw (o : Word) : Statement (.movAxOw o) :=
  of_bytes rfl (Nat.le_of_ble_eq_true rfl) (Nat.le_of_ble_eq_true rfl)

theorem movObAl (o : Word) : Statement (.movObAl o) :=
  of_bytes rfl (Nat.le_of_ble_eq_true rfl) (Nat.le_of_ble_eq_true rfl)

theorem movOwAx (o : Word) : Statement (.movOwAx o) :=
  of_bytes rfl (Nat.le_of_ble_eq_true rfl) (Nat.le_of_ble_eq_true rfl)

theorem testAlIb (i : Byte) : Statement (.testAlIb i) :=
  of_bytes rfl (Nat.le_of_ble_eq_true rfl) (Nat.le_of_ble_eq_true rfl)

theorem testAxIw (i : Word) : Statement (.testAxIw i) :=
  of_bytes rfl (Nat.le_of_ble_eq_true rfl) (Nat.le_of_ble_eq_true rfl)

theorem movR8Ib (r : Reg8) (i : Byte) : Statement (.movR8Ib r i) :=
  of_bytes rfl (Nat.le_of_ble_eq_true rfl) (Nat.le_of_ble_eq_true rfl)

theorem movR16Iw (r : Reg16) (i : Word) : Statement (.movR16Iw r i) :=
  of_bytes rfl (Nat.le_of_ble_eq_true rfl) (Nat.le_of_ble_eq_true rfl)

theorem rolEbIb (e : Rm8) (c : Byte) : Statement (.rolEbIb e c) := of_e8_byte rfl

theorem rolEvIb (e : Rm16) (c : Byte) : Statement (.rolEvIb e c) := of_e16_byte rfl

theorem rolEb1 (e : Rm8) : Statement (.rolEb1 e) := of_e8 rfl

theorem rolEv1 (e : Rm16) : Statement (.rolEv1 e) := of_e16 rfl

theorem rolEbCl (e : Rm8) : Statement (.rolEbCl e) := of_e8 rfl

theorem rolEvCl (e : Rm16) : Statement (.rolEvCl e) := of_e16 rfl

theorem rorEbIb (e : Rm8) (c : Byte) : Statement (.rorEbIb e c) := of_e8_byte rfl

theorem rorEvIb (e : Rm16) (c : Byte) : Statement (.rorEvIb e c) := of_e16_byte rfl

theorem rorEb1 (e : Rm8) : Statement (.rorEb1 e) := of_e8 rfl

theorem rorEv1 (e : Rm16) : Statement (.rorEv1 e) := of_e16 rfl

theorem rorEbCl (e : Rm8) : Statement (.rorEbCl e) := of_e8 rfl

theorem rorEvCl (e : Rm16) : Statement (.rorEvCl e) := of_e16 rfl

theorem rclEbIb (e : Rm8) (c : Byte) : Statement (.rclEbIb e c) := of_e8_byte rfl

theorem rclEvIb (e : Rm16) (c : Byte) : Statement (.rclEvIb e c) := of_e16_byte rfl

theorem rclEb1 (e : Rm8) : Statement (.rclEb1 e) := of_e8 rfl

theorem rclEv1 (e : Rm16) : Statement (.rclEv1 e) := of_e16 rfl

theorem rclEbCl (e : Rm8) : Statement (.rclEbCl e) := of_e8 rfl

theorem rclEvCl (e : Rm16) : Statement (.rclEvCl e) := of_e16 rfl

theorem rcrEbIb (e : Rm8) (c : Byte) : Statement (.rcrEbIb e c) := of_e8_byte rfl

theorem rcrEvIb (e : Rm16) (c : Byte) : Statement (.rcrEvIb e c) := of_e16_byte rfl

theorem rcrEb1 (e : Rm8) : Statement (.rcrEb1 e) := of_e8 rfl

theorem rcrEv1 (e : Rm16) : Statement (.rcrEv1 e) := of_e16 rfl

theorem rcrEbCl (e : Rm8) : Statement (.rcrEbCl e) := of_e8 rfl

theorem rcrEvCl (e : Rm16) : Statement (.rcrEvCl e) := of_e16 rfl

theorem shlEbIb (e : Rm8) (c : Byte) : Statement (.shlEbIb e c) := of_e8_byte rfl

theorem shlEvIb (e : Rm16) (c : Byte) : Statement (.shlEvIb e c) := of_e16_byte rfl

theorem shlEb1 (e : Rm8) : Statement (.shlEb1 e) := of_e8 rfl

theorem shlEv1 (e : Rm16) : Statement (.shlEv1 e) := of_e16 rfl

theorem shlEbCl (e : Rm8) : Statement (.shlEbCl e) := of_e8 rfl

theorem shlEvCl (e : Rm16) : Statement (.shlEvCl e) := of_e16 rfl

theorem shrEbIb (e : Rm8) (c : Byte) : Statement (.shrEbIb e c) := of_e8_byte rfl

theorem shrEvIb (e : Rm16) (c : Byte) : Statement (.shrEvIb e c) := of_e16_byte rfl

theorem shrEb1 (e : Rm8) : Statement (.shrEb1 e) := of_e8 rfl

theorem shrEv1 (e : Rm16) : Statement (.shrEv1 e) := of_e16 rfl

theorem shrEbCl (e : Rm8) : Statement (.shrEbCl e) := of_e8 rfl

theorem shrEvCl (e : Rm16) : Statement (.shrEvCl e) := of_e16 rfl

theorem sarEbIb (e : Rm8) (c : Byte) : Statement (.sarEbIb e c) := of_e8_byte rfl

theorem sarEvIb (e : Rm16) (c : Byte) : Statement (.sarEvIb e c) := of_e16_byte rfl

theorem sarEb1 (e : Rm8) : Statement (.sarEb1 e) := of_e8 rfl

theorem sarEv1 (e : Rm16) : Statement (.sarEv1 e) := of_e16 rfl

theorem sarEbCl (e : Rm8) : Statement (.sarEbCl e) := of_e8 rfl

theorem sarEvCl (e : Rm16) : Statement (.sarEvCl e) := of_e16 rfl

theorem retIw (i : Word) : Statement (.retIw i) :=
  of_bytes rfl (Nat.le_of_ble_eq_true rfl) (Nat.le_of_ble_eq_true rfl)

theorem lesGvMp (g : Reg16) (m : Mem) : Statement (.lesGvMp g m) := of_mem rfl

theorem ldsGvMp (g : Reg16) (m : Mem) : Statement (.ldsGvMp g m) := of_mem rfl

theorem movEbIb (e : Rm8) (i : Byte) : Statement (.movEbIb e i) := of_e8_byte rfl

theorem movEvIw (e : Rm16) (i : Word) : Statement (.movEvIw e i) := of_e16_word rfl

theorem enterIwIb (size : Word) (level : Byte) : Statement (.enterIwIb size level) :=
  of_bytes rfl (Nat.le_of_ble_eq_true rfl) (Nat.le_of_ble_eq_true rfl)

theorem retfIw (i : Word) : Statement (.retfIw i) :=
  of_bytes rfl (Nat.le_of_ble_eq_true rfl) (Nat.le_of_ble_eq_true rfl)

theorem intIb (n : Byte) : Statement (.intIb n) :=
  of_bytes rfl (Nat.le_of_ble_eq_true rfl) (Nat.le_of_ble_eq_true rfl)

theorem aamIb (i : Byte) : Statement (.aamIb i) :=
  of_bytes rfl (Nat.le_of_ble_eq_true rfl) (Nat.le_of_ble_eq_true rfl)

theorem aadIb (i : Byte) : Statement (.aadIb i) :=
  of_bytes rfl (Nat.le_of_ble_eq_true rfl) (Nat.le_of_ble_eq_true rfl)

theorem esc (n : BitVec 3) (x : BitVec 3) (e : Rm16) : Statement (.esc n x e) := of_e16 rfl

theorem loopnzRel8 (rel : Byte) : Statement (.loopnzRel8 rel) :=
  of_bytes rfl (Nat.le_of_ble_eq_true rfl) (Nat.le_of_ble_eq_true rfl)

theorem loopzRel8 (rel : Byte) : Statement (.loopzRel8 rel) :=
  of_bytes rfl (Nat.le_of_ble_eq_true rfl) (Nat.le_of_ble_eq_true rfl)

theorem loopRel8 (rel : Byte) : Statement (.loopRel8 rel) :=
  of_bytes rfl (Nat.le_of_ble_eq_true rfl) (Nat.le_of_ble_eq_true rfl)

theorem jcxzRel8 (rel : Byte) : Statement (.jcxzRel8 rel) :=
  of_bytes rfl (Nat.le_of_ble_eq_true rfl) (Nat.le_of_ble_eq_true rfl)

theorem inAlIb (p : Byte) : Statement (.inAlIb p) :=
  of_bytes rfl (Nat.le_of_ble_eq_true rfl) (Nat.le_of_ble_eq_true rfl)

theorem inAxIb (p : Byte) : Statement (.inAxIb p) :=
  of_bytes rfl (Nat.le_of_ble_eq_true rfl) (Nat.le_of_ble_eq_true rfl)

theorem outIbAl (p : Byte) : Statement (.outIbAl p) :=
  of_bytes rfl (Nat.le_of_ble_eq_true rfl) (Nat.le_of_ble_eq_true rfl)

theorem outIbAx (p : Byte) : Statement (.outIbAx p) :=
  of_bytes rfl (Nat.le_of_ble_eq_true rfl) (Nat.le_of_ble_eq_true rfl)

theorem callRel16 (rel : Word) : Statement (.callRel16 rel) :=
  of_bytes rfl (Nat.le_of_ble_eq_true rfl) (Nat.le_of_ble_eq_true rfl)

theorem jmpRel16 (rel : Word) : Statement (.jmpRel16 rel) :=
  of_bytes rfl (Nat.le_of_ble_eq_true rfl) (Nat.le_of_ble_eq_true rfl)

theorem jmpAp (off : Word) (sg : Word) : Statement (.jmpAp off sg) :=
  of_bytes rfl (Nat.le_of_ble_eq_true rfl) (Nat.le_of_ble_eq_true rfl)

theorem jmpRel8 (rel : Byte) : Statement (.jmpRel8 rel) :=
  of_bytes rfl (Nat.le_of_ble_eq_true rfl) (Nat.le_of_ble_eq_true rfl)

theorem testEbIb (e : Rm8) (i : Byte) : Statement (.testEbIb e i) := of_e8_byte rfl

theorem testEvIw (e : Rm16) (i : Word) : Statement (.testEvIw e i) := of_e16_word rfl

theorem notEb (e : Rm8) : Statement (.notEb e) := of_e8 rfl

theorem notEv (e : Rm16) : Statement (.notEv e) := of_e16 rfl

theorem negEb (e : Rm8) : Statement (.negEb e) := of_e8 rfl

theorem negEv (e : Rm16) : Statement (.negEv e) := of_e16 rfl

theorem mulEb (e : Rm8) : Statement (.mulEb e) := of_e8 rfl

theorem mulEv (e : Rm16) : Statement (.mulEv e) := of_e16 rfl

theorem imulEb (e : Rm8) : Statement (.imulEb e) := of_e8 rfl

theorem imulEv (e : Rm16) : Statement (.imulEv e) := of_e16 rfl

theorem divEb (e : Rm8) : Statement (.divEb e) := of_e8 rfl

theorem divEv (e : Rm16) : Statement (.divEv e) := of_e16 rfl

theorem idivEb (e : Rm8) : Statement (.idivEb e) := of_e8 rfl

theorem idivEv (e : Rm16) : Statement (.idivEv e) := of_e16 rfl

theorem incEb (e : Rm8) : Statement (.incEb e) := of_e8 rfl

theorem decEb (e : Rm8) : Statement (.decEb e) := of_e8 rfl

theorem incEv (e : Rm16) : Statement (.incEv e) := of_e16 rfl

theorem decEv (e : Rm16) : Statement (.decEv e) := of_e16 rfl

theorem callEv (e : Rm16) : Statement (.callEv e) := of_e16 rfl

theorem callMp (m : Mem) : Statement (.callMp m) := of_mem rfl

theorem jmpEv (e : Rm16) : Statement (.jmpEv e) := of_e16 rfl

theorem jmpMp (m : Mem) : Statement (.jmpMp m) := of_mem rfl

theorem pushEv (e : Rm16) : Statement (.pushEv e) := of_e16 rfl

theorem pushEs : Statement (.pushEs) := of_bytes rfl (by decide) (by decide)

theorem pushCs : Statement (.pushCs) := of_bytes rfl (by decide) (by decide)

theorem pushSs : Statement (.pushSs) := of_bytes rfl (by decide) (by decide)

theorem pushDs : Statement (.pushDs) := of_bytes rfl (by decide) (by decide)

theorem popEs : Statement (.popEs) := of_bytes rfl (by decide) (by decide)

theorem popSs : Statement (.popSs) := of_bytes rfl (by decide) (by decide)

theorem popDs : Statement (.popDs) := of_bytes rfl (by decide) (by decide)

theorem pfxEs : Statement (.pfxEs) := of_bytes rfl (by decide) (by decide)

theorem pfxCs : Statement (.pfxCs) := of_bytes rfl (by decide) (by decide)

theorem pfxSs : Statement (.pfxSs) := of_bytes rfl (by decide) (by decide)

theorem pfxDs : Statement (.pfxDs) := of_bytes rfl (by decide) (by decide)

theorem pfxLock : Statement (.pfxLock) := of_bytes rfl (by decide) (by decide)

theorem pfxRepne : Statement (.pfxRepne) := of_bytes rfl (by decide) (by decide)

theorem pfxRep : Statement (.pfxRep) := of_bytes rfl (by decide) (by decide)

theorem daa : Statement (.daa) := of_bytes rfl (by decide) (by decide)

theorem das : Statement (.das) := of_bytes rfl (by decide) (by decide)

theorem aaa : Statement (.aaa) := of_bytes rfl (by decide) (by decide)

theorem aas : Statement (.aas) := of_bytes rfl (by decide) (by decide)

theorem pusha : Statement (.pusha) := of_bytes rfl (by decide) (by decide)

theorem popa : Statement (.popa) := of_bytes rfl (by decide) (by decide)

theorem insb : Statement (.insb) := of_bytes rfl (by decide) (by decide)

theorem insw : Statement (.insw) := of_bytes rfl (by decide) (by decide)

theorem outsb : Statement (.outsb) := of_bytes rfl (by decide) (by decide)

theorem outsw : Statement (.outsw) := of_bytes rfl (by decide) (by decide)

theorem nop : Statement (.nop) := of_bytes rfl (by decide) (by decide)

theorem cbw : Statement (.cbw) := of_bytes rfl (by decide) (by decide)

theorem cwd : Statement (.cwd) := of_bytes rfl (by decide) (by decide)

theorem wait : Statement (.wait) := of_bytes rfl (by decide) (by decide)

theorem pushf : Statement (.pushf) := of_bytes rfl (by decide) (by decide)

theorem popf : Statement (.popf) := of_bytes rfl (by decide) (by decide)

theorem sahf : Statement (.sahf) := of_bytes rfl (by decide) (by decide)

theorem lahf : Statement (.lahf) := of_bytes rfl (by decide) (by decide)

theorem movsb : Statement (.movsb) := of_bytes rfl (by decide) (by decide)

theorem movsw : Statement (.movsw) := of_bytes rfl (by decide) (by decide)

theorem cmpsb : Statement (.cmpsb) := of_bytes rfl (by decide) (by decide)

theorem cmpsw : Statement (.cmpsw) := of_bytes rfl (by decide) (by decide)

theorem stosb : Statement (.stosb) := of_bytes rfl (by decide) (by decide)

theorem stosw : Statement (.stosw) := of_bytes rfl (by decide) (by decide)

theorem lodsb : Statement (.lodsb) := of_bytes rfl (by decide) (by decide)

theorem lodsw : Statement (.lodsw) := of_bytes rfl (by decide) (by decide)

theorem scasb : Statement (.scasb) := of_bytes rfl (by decide) (by decide)

theorem scasw : Statement (.scasw) := of_bytes rfl (by decide) (by decide)

theorem ret : Statement (.ret) := of_bytes rfl (by decide) (by decide)

theorem leave : Statement (.leave) := of_bytes rfl (by decide) (by decide)

theorem retf : Statement (.retf) := of_bytes rfl (by decide) (by decide)

theorem int3 : Statement (.int3) := of_bytes rfl (by decide) (by decide)

theorem into : Statement (.into) := of_bytes rfl (by decide) (by decide)

theorem iret : Statement (.iret) := of_bytes rfl (by decide) (by decide)

theorem xlat : Statement (.xlat) := of_bytes rfl (by decide) (by decide)

theorem inAlDx : Statement (.inAlDx) := of_bytes rfl (by decide) (by decide)

theorem inAxDx : Statement (.inAxDx) := of_bytes rfl (by decide) (by decide)

theorem outDxAl : Statement (.outDxAl) := of_bytes rfl (by decide) (by decide)

theorem outDxAx : Statement (.outDxAx) := of_bytes rfl (by decide) (by decide)

theorem hlt : Statement (.hlt) := of_bytes rfl (by decide) (by decide)

theorem cmc : Statement (.cmc) := of_bytes rfl (by decide) (by decide)

theorem clc : Statement (.clc) := of_bytes rfl (by decide) (by decide)

theorem stc : Statement (.stc) := of_bytes rfl (by decide) (by decide)

theorem cli : Statement (.cli) := of_bytes rfl (by decide) (by decide)

theorem sti : Statement (.sti) := of_bytes rfl (by decide) (by decide)

theorem cld : Statement (.cld) := of_bytes rfl (by decide) (by decide)

theorem std : Statement (.std) := of_bytes rfl (by decide) (by decide)

end Sys2Proof.Laws.Length
end

