-- ==== Sys2Proof/Laws/Decode.lean ====
section
/-! SUPPORT. Reading back what the encoder writes: register fields, words and the ModRM byte with its displacement
(30_encoding.md R161-R164, R168). -/

namespace Sys2Proof

@[simp] theorem reg8_ofBits_bits (r : Reg8) : Reg8.ofBits r.bits = r := by cases r <;> rfl

@[simp] theorem reg16_ofBits_bits (r : Reg16) : Reg16.ofBits r.bits = r := by cases r <;> rfl

@[simp] theorem base_ofBits_bits (b : Base) : Base.ofBits b.bits = b := by cases b <;> rfl

theorem reg8_bits_ofBits : ∀ b : BitVec 3, (Reg8.ofBits b).bits = b := by decide

theorem reg16_bits_ofBits : ∀ b : BitVec 3, (Reg16.ofBits b).bits = b := by decide

theorem base_bits_ofBits : ∀ b : BitVec 3, (Base.ofBits b).bits = b := by decide

/-- A word from its two bytes in memory order. -/
@[simp] theorem leWord_wordBytes (w : Word) : leWord (w.extractLsb' 0 8) (w.extractLsb' 8 8) = w := by
  apply BitVec.eq_of_getLsbD_eq
  intro i hi
  simp only [leWord, BitVec.getLsbD_append, BitVec.getLsbD_extractLsb']
  split
  · simp [*]
  · rename_i h
    have h8 : i - 8 < 8 := by omega
    have e : 8 + (i - 8) = i := by omega
    simp [h8, e]

/-- The two bytes of a word made of two bytes. -/
theorem wordBytes_leWord (a b : Byte) : wordBytes (leWord a b) = [a, b] := by
  unfold wordBytes leWord
  congr 1
  · apply BitVec.eq_of_getLsbD_eq
    intro i hi
    simp only [BitVec.getLsbD_append, BitVec.getLsbD_extractLsb']
    simp [hi]
  · congr 1
    apply BitVec.eq_of_getLsbD_eq
    intro i hi
    have h8 : ¬8 + i < 8 := by omega
    simp only [BitVec.getLsbD_append, BitVec.getLsbD_extractLsb']
    simp [hi, h8]

theorem modrmByte_mod (md : BitVec 2) (reg rm : BitVec 3) : (modrmByte md reg rm).extractLsb' 6 2 = md := by
  revert md reg rm; decide

theorem modrmByte_reg (md : BitVec 2) (reg rm : BitVec 3) : (modrmByte md reg rm).extractLsb' 3 3 = reg := by
  revert md reg rm; decide

theorem modrmByte_rm (md : BitVec 2) (reg rm : BitVec 3) : (modrmByte md reg rm).extractLsb' 0 3 = rm := by
  revert md reg rm; decide

/-- A byte is the ModRM byte of its three fields. -/
theorem modrmByte_fields (b : Byte) : modrmByte (b.extractLsb' 6 2) (b.extractLsb' 3 3) (b.extractLsb' 0 3) = b := by
  revert b; decide

/-- The ModRM byte and displacement that the decoder reads a field from. -/
def encodeField (reg : BitVec 3) : RmField → List Byte
  | .reg n => [modrmByte 3#2 reg n]
  | .mem m => encodeMem reg m

/-- The field that the operand E of width 8 has. -/
def Rm8.field : Rm8 → RmField
  | .reg r => .reg r.bits
  | .mem m => .mem m

/-- The field that the operand E of width 16 has. -/
def Rm16.field : Rm16 → RmField
  | .reg r => .reg r.bits
  | .mem m => .mem m

/-- A field has an encoding. -/
def RmField.wf : RmField → Bool
  | .reg _ => true
  | .mem m => m.wf

@[simp] theorem field_e8 (e : Rm8) : e.field.e8 = e := by cases e <;> simp [Rm8.field, RmField.e8]

@[simp] theorem field_e16 (e : Rm16) : e.field.e16 = e := by cases e <;> simp [Rm16.field, RmField.e16]

theorem encodeE8_eq (reg : BitVec 3) (e : Rm8) : encodeE8 reg e = encodeField reg e.field := by cases e <;> rfl

theorem encodeE16_eq (reg : BitVec 3) (e : Rm16) : encodeE16 reg e = encodeField reg e.field := by cases e <;> rfl

/-- The decoder reads back an encoded ModRM byte and displacement, and leaves the bytes after them. -/
theorem parseModRM_encodeField (reg : BitVec 3) (f : RmField) (rest : List Byte) (h : f.wf = true) :
    parseModRM (encodeField reg f ++ rest) = some (reg, f, rest) := by
  cases f with
  | reg n => simp [encodeField, parseModRM, modrmByte_mod, modrmByte_reg, modrmByte_rm]
  | mem m =>
    cases m with
    | direct off =>
      simp [encodeField, encodeMem, wordBytes, parseModRM, modrmByte_mod, modrmByte_reg, modrmByte_rm]
    | based b d =>
      cases d with
      | none =>
        have hb : b.bits ≠ 6#3 := by
          cases b <;> first | decide | simp [RmField.wf, Mem.wf] at h
        simp [encodeField, encodeMem, parseModRM, modrmByte_mod, modrmByte_reg, modrmByte_rm, hb]
      | d8 d => simp [encodeField, encodeMem, parseModRM, modrmByte_mod, modrmByte_reg, modrmByte_rm]
      | d16 d => simp [encodeField, encodeMem, wordBytes, parseModRM, modrmByte_mod, modrmByte_reg, modrmByte_rm]

theorem memWf_disp (b : Base) (d : Disp) (h : d ≠ .none) : (Mem.based b d).wf = true := by
  cases b <;> cases d <;> first | rfl | exact absurd rfl h

theorem two_bits (x : BitVec 2) : x = 0#2 ∨ x = 1#2 ∨ x = 2#2 ∨ x = 3#2 := by revert x; decide

/-- What the decoder reads from a ModRM byte on is the encoding of the field it reads. -/
theorem parseModRM_some {bs rest : List Byte} {reg : BitVec 3} {f : RmField} (h : parseModRM bs = some (reg, f, rest)) :
    f.wf = true ∧ bs = encodeField reg f ++ rest := by
  cases bs with
  | nil => simp [parseModRM] at h
  | cons b bs =>
    have hb := modrmByte_fields b
    simp only [parseModRM] at h
    rcases two_bits (b.extractLsb' 6 2) with hm | hm | hm | hm <;> simp only [hm] at h hb
    · simp at h
      split at h
      · rename_i hr
        cases bs with
        | nil => simp at h
        | cons lo bs =>
          cases bs with
          | nil => simp at h
          | cons hi bs =>
            simp at h
            obtain ⟨rfl, rfl, rfl⟩ := h
            rw [hr] at hb
            exact ⟨rfl, by simp [encodeField, encodeMem, wordBytes_leWord, hb]⟩
      · rename_i hr
        simp at h
        obtain ⟨rfl, rfl, rfl⟩ := h
        refine ⟨?_, by simp [encodeField, encodeMem, base_bits_ofBits, hb]⟩
        generalize b.extractLsb' 0 3 = rm at hr
        revert rm; decide
    · cases bs with
      | nil => simp at h
      | cons d bs =>
        simp at h
        obtain ⟨rfl, rfl, rfl⟩ := h
        exact ⟨memWf_disp _ _ (by simp), by simp [encodeField, encodeMem, base_bits_ofBits, hb]⟩
    · cases bs with
      | nil => simp at h
      | cons lo bs =>
        cases bs with
        | nil => simp at h
        | cons hi bs =>
          simp at h
          obtain ⟨rfl, rfl, rfl⟩ := h
          exact ⟨memWf_disp _ _ (by simp), by simp [encodeField, encodeMem, base_bits_ofBits, wordBytes_leWord, hb]⟩
    · simp at h
      obtain ⟨rfl, rfl, rfl⟩ := h
      exact ⟨rfl, by simp [encodeField, hb]⟩

/-- The length of what is read is what is missing from the rest. -/
theorem withModRM_encodeField (reg : BitVec 3) (f : RmField) (rest : List Byte) (h : f.wf = true)
    (k : BitVec 3 → RmField → Nat → List Byte → Decoded) :
    withModRM (encodeField reg f ++ rest) k = k reg f (1 + (encodeField reg f).length) rest := by
  simp [withModRM, parseModRM_encodeField _ _ _ h]

theorem field_wf8 (e : Rm8) : e.field.wf = e.wf := by cases e <;> rfl

theorem field_wf16 (e : Rm16) : e.field.wf = e.wf := by cases e <;> rfl

/-- An opcode with operands E and G of width 8 (R171). -/
theorem decode_eg8 {b : Byte} {f : Rm8 → Reg8 → Instr} (hb : opcodeMap.getD b.toNat .gap = .eg8 f) (e : Rm8) (g : Reg8)
    (rest : List Byte) (h : e.wf = true) : decode (b :: (encodeE8 g.bits e ++ rest)) = .instr (f e g) rest := by
  rw [decode, hb]
  simp [decodeEntry, encodeE8_eq, withModRM_encodeField, field_wf8, h]

/-- An opcode with operands E and G of width 16 (R171). -/
theorem decode_eg16 {b : Byte} {f : Rm16 → Reg16 → Instr} (hb : opcodeMap.getD b.toNat .gap = .eg16 f) (e : Rm16)
    (g : Reg16) (rest : List Byte) (h : e.wf = true) :
    decode (b :: (encodeE16 g.bits e ++ rest)) = .instr (f e g) rest := by
  rw [decode, hb]
  simp [decodeEntry, encodeE16_eq, withModRM_encodeField, field_wf16, h]

/-- A member of a group opcode (R172): the decoder goes on with the member's entry. -/
theorem decode_group {b : Byte} {g : List GroupEntry} (hb : opcodeMap.getD b.toNat .gap = .group g) (reg : BitVec 3)
    (f : RmField) (rest : List Byte) (h : f.wf = true) :
    decode (b :: (encodeField reg f ++ rest))
      = decodeGroup (g.getD reg.toNat .gap) (1 + (encodeField reg f).length) f rest := by
  rw [decode, hb]
  simp only [decodeEntry, withModRM_encodeField _ _ _ h]

end Sys2Proof
end

