-- ==== Sys2Proof/Laws/Devices.lean ====
section
/-! SUPPORT. What the advance of the devices touches, and the loops of the scheduler, the mixer, the row composition and the
host's byte strings in the terms of Machine/Shapes.lean. -/

namespace Sys2Proof.Machine

/-! ## What a tick touches -/

/-- The state `t` is `s` with the devices of `t`. -/
def DevicesOnly (s t : State) : Prop := t = s.takeDevices t

theorem DevicesOnly.trans {s t u : State} (h : DevicesOnly s t) (k : DevicesOnly t u) : DevicesOnly s u := by
  unfold DevicesOnly at *
  rw [k, h]
  rfl

theorem devicesOnly_composeLine (s : State) : DevicesOnly s s.composeLine := rfl

theorem devicesOnly_ppuNextLine (s : State) : DevicesOnly s s.ppuNextLine := by
  simp only [State.ppuNextLine]
  repeat (first | rfl | split)

/-- A PPU dot touches the devices alone. -/
theorem devicesOnly_ppuDot (s : State) : DevicesOnly s s.ppuDot := by
  have h : ∀ u, DevicesOnly s u → ∀ n m,
      DevicesOnly s (if u.ppu.dot = n then (if u.ppu.line < m then u.composeLine else u).ppuNextLine else u) := by
    intro u hu n m
    split
    · refine DevicesOnly.trans ?_ (devicesOnly_ppuNextLine _)
      split
      · exact hu.trans (devicesOnly_composeLine u)
      · exact hu
    · exact hu
  unfold State.ppuDot
  refine h _ ?_ _ _
  split <;> rfl

/-- An APU tick touches the devices alone. -/
theorem devicesOnly_apuTick (s : State) : DevicesOnly s s.apuTick := rfl

/-- A tick of one timer unit touches the devices alone. -/
theorem devicesOnly_timerTick (s : State) (k : Nat) (u : TimerUnit) : DevicesOnly s (s.timerTick k u) := by
  simp only [State.timerTick]
  split <;> rfl

/-! ## The loops of the scheduler -/

theorem repeat_comm {α : Type} (f : α → α) (n : Nat) (x : α) : Nat.repeat f n (f x) = f (Nat.repeat f n x) := by
  induction n with
  | zero => rfl
  | succ n ih => simp [Nat.repeat, ih]

theorem ppuDots_eq (s : State) (n : Nat) : s.ppuDots n = Nat.repeat State.ppuDot n s := by
  induction n generalizing s with
  | zero => rfl
  | succ n ih => simp [State.ppuDots, ih, Nat.repeat, repeat_comm]

theorem apuTicks_eq (s : State) (n : Nat) : s.apuTicks n = Nat.repeat State.apuTick n s := by
  induction n generalizing s with
  | zero => rfl
  | succ n ih => simp [State.apuTicks, ih, Nat.repeat, repeat_comm]

theorem timerTicks_eq (s : State) (n : Nat) : s.timerTicks n = Nat.repeat State.timerTickAll n s := by
  induction n generalizing s with
  | zero => rfl
  | succ n ih => simp [State.timerTicks, ih, Nat.repeat, repeat_comm]

theorem timerTicksFrom_eq (s : State) (k : Nat) (us : List TimerUnit) :
    s.timerTicksFrom k us = (us.zipIdx k).foldl (fun w x => w.timerTick x.2 x.1) s := by
  induction us generalizing s k with
  | nil => rfl
  | cons u us ih => simp [State.timerTicksFrom, ih]

/-! ## The APU -/

theorem channelTicks_length (e : EnvelopeStep) (us : List ChannelUnit) (cs : List Channel) :
    (channelTicks e us cs).length = cs.length := by
  induction us generalizing cs with
  | nil => rfl
  | cons u us ih => cases cs <;> simp [channelTicks, ih]

theorem channelTicks_get {e : EnvelopeStep} {us : List ChannelUnit} {cs : List Channel} {k : Nat} {u : ChannelUnit} {c : Channel}
    (hu : us[k]? = some u) (hc : cs[k]? = some c) : (channelTicks e us cs)[k]? = some (channelTick e u.kind c) := by
  induction us generalizing cs k with
  | nil => simp at hu
  | cons v us ih =>
    cases cs with
    | nil => simp at hc
    | cons d cs =>
      cases k with
      | zero => simp at hu hc; simp [channelTicks, hu, hc]
      | succ k => simp at hu hc; simpa [channelTicks] using ih hu hc

/-- The mixer's outputs are those of R583. -/
theorem channelOut_eq (k : ChannelKind) (c : Channel) : channelOut k c = outputOf k c := by
  have hd : (duty c).toNat = c.ctrl.toNat / 2 % 8 := by simp [duty, Nat.shiftRight_eq_div_pow]
  unfold channelOut outputOf chen
  by_cases h : c.ctrl.getLsbD 0 = true
  · simp only [h, Bool.not_true]
    cases k
    · simp [hd]
    · have hb : c.phase.getLsbD 0 = decide (c.phase.toNat % 2 = 1) := by
        rcases Nat.mod_two_eq_zero_or_one c.phase.toNat with h | h <;>
          simp [BitVec.getLsbD, Nat.testBit, Nat.one_and_eq_mod_two, h]
      rcases Nat.mod_two_eq_zero_or_one c.phase.toNat with h | h <;> simp_all
    · simp
  · simp at h
    simp [h]

/-! ## The PPU -/

/-- The first opaque sprite pixel is the one that the search finds (R566). -/
theorem spritePixel_eq (ram : Memory) (y x : Nat) (l : List Nat) :
    spritePixel ram y x l
      = match l.find? fun i => Config.sprIndex ram i y x != 0 with
        | some i => (Config.sprIndex ram i y x, Config.sprOver ram i)
        | none => (0, false) := by
  induction l with
  | nil => rfl
  | cons i l ih =>
    by_cases h : Config.sprIndex ram i y x = 0
    · simp [spritePixel, List.find?, h, ih]
    · have hb : (Config.sprIndex ram i y x != 0) = true := by simp [h]
      simp [spritePixel, List.find?, h, hb]

/-! ## The host's byte strings -/

theorem find?_cellsOf_lt {bs : List Byte} {a k : Nat} (h : k < a) : Memory.find? (cellsOf a bs) k = none := by
  induction bs generalizing a with
  | nil => rfl
  | cons b bs ih =>
    have := ih (a := a + 1) (by omega)
    simp only [cellsOf]
    split
    · exact this
    · simp [Memory.find?, this]
      omega

theorem find?_putBytes_lt {bs : List Byte} {m : Memory} {a k : Nat} (h : k < a) :
    Memory.find? (putBytes m a bs) k = Memory.find? m k := by
  induction bs generalizing m a with
  | nil => rfl
  | cons b bs ih => rw [putBytes, ih (by omega), find?_put_ne _ _ _ (by omega)]

/-- Writing a byte string keeps the canonical form. -/
theorem wf_putBytes {size : Nat} {bs : List Byte} {m : Memory} {a : Nat} (ha : a + bs.length ≤ size)
    (h : Memory.wf (some 0#8) size m = true) : Memory.wf (some 0#8) size (putBytes m a bs) = true := by
  induction bs generalizing m a with
  | nil => exact h
  | cons b bs ih =>
    simp only [List.length_cons] at ha
    exact ih (by omega) (wf_put b (by omega) h)

/-- A memory made of a byte string has the canonical form. -/
theorem rises_cellsOf (bs : List Byte) (a : Nat) : Memory.rises a (cellsOf a bs) = true := by
  induction bs generalizing a with
  | nil => rfl
  | cons b bs ih =>
    simp only [cellsOf]
    split
    · exact rises_mono (ih (a + 1)) (by omega)
    · simpa [Memory.rises] using ih (a + 1)

end Sys2Proof.Machine
end

