-- ==== Sys2Proof/Laws/Host.lean ====
section
/-! SUPPORT. The host's mode, sample buffer and trace are read by no instruction: an instruction does the same whatever they
are (60_exceptions.md R586, R594). -/

namespace Sys2Proof.Machine

/-- What the host sees and sets beside the machine: its mode, its sample buffer and its trace (R586, R594). -/
structure HostPart where
  mode : HostMode
  samples : List Int
  trace : List TraceRec

/-- The state with another host part. -/
def State.withHost (s : State) (h : HostPart) : State := { s with mode := h.mode, samples := h.samples, trace := h.trace }

/-- An outcome with its next state changed. -/
def mapNext (f : State → State) : Result → Result
  | .next t => .next (f t)
  | .fault r => .fault r
  | .refused r => .refused r

@[simp] theorem mapNext_next (f : State → State) (t : State) : mapNext f (.next t) = .next (f t) := rfl

/-! ## Readings -/

@[simp] theorem withHost_regs (s : State) (h : HostPart) : (s.withHost h).regs = s.regs := rfl
@[simp] theorem withHost_unset (s : State) (h : HostPart) : (s.withHost h).unset = s.unset := rfl
@[simp] theorem withHost_segs (s : State) (h : HostPart) : (s.withHost h).segs = s.segs := rfl
@[simp] theorem withHost_ip (s : State) (h : HostPart) : (s.withHost h).ip = s.ip := rfl
@[simp] theorem withHost_flags (s : State) (h : HostPart) : (s.withHost h).flags = s.flags := rfl
@[simp] theorem withHost_halted (s : State) (h : HostPart) : (s.withHost h).halted = s.halted := rfl
@[simp] theorem withHost_shadow (s : State) (h : HostPart) : (s.withHost h).shadow = s.shadow := rfl
@[simp] theorem withHost_diag (s : State) (h : HostPart) : (s.withHost h).diag = s.diag := rfl
@[simp] theorem withHost_faults (s : State) (h : HostPart) : (s.withHost h).faults = s.faults := rfl
@[simp] theorem withHost_ic (s : State) (h : HostPart) : (s.withHost h).ic = s.ic := rfl
@[simp] theorem withHost_timers (s : State) (h : HostPart) : (s.withHost h).timers = s.timers := rfl
@[simp] theorem withHost_ppu (s : State) (h : HostPart) : (s.withHost h).ppu = s.ppu := rfl
@[simp] theorem withHost_apu (s : State) (h : HostPart) : (s.withHost h).apu = s.apu := rfl
@[simp] theorem withHost_banks (s : State) (h : HostPart) : (s.withHost h).banks = s.banks := rfl
@[simp] theorem withHost_ram (s : State) (h : HostPart) : (s.withHost h).ram = s.ram := rfl
@[simp] theorem withHost_rom (s : State) (h : HostPart) : (s.withHost h).rom = s.rom := rfl
@[simp] theorem withHost_save (s : State) (h : HostPart) : (s.withHost h).save = s.save := rfl
@[simp] theorem withHost_rem (s : State) (h : HostPart) : (s.withHost h).rem = s.rem := rfl
@[simp] theorem withHost_elapsed (s : State) (h : HostPart) : (s.withHost h).elapsed = s.elapsed := rfl
@[simp] theorem withHost_raised (s : State) (h : HostPart) : (s.withHost h).raised = s.raised := rfl
@[simp] theorem withHost_input (s : State) (h : HostPart) : (s.withHost h).input = s.input := rfl
@[simp] theorem withHost_cfg (s : State) (h : HostPart) : (s.withHost h).cfg = s.cfg := rfl
@[simp] theorem withHost_ext (s : State) (h : HostPart) : (s.withHost h).ext = s.ext := rfl
@[simp] theorem withHost_cur (s : State) (h : HostPart) : (s.withHost h).cur = s.cur := rfl
@[simp] theorem withHost_reg16 (s : State) (h : HostPart) (q : Reg16) : (s.withHost h).reg16 q = s.reg16 q := rfl
@[simp] theorem withHost_reg8 (s : State) (h : HostPart) (q : Reg8) : (s.withHost h).reg8 q = s.reg8 q := rfl
@[simp] theorem withHost_sreg (s : State) (h : HostPart) (q : SReg) : (s.withHost h).sreg q = s.sreg q := rfl
@[simp] theorem withHost_flag (s : State) (h : HostPart) (f : Flag) : (s.withHost h).flag f = s.flag f := rfl
@[simp] theorem withHost_unset8 (s : State) (h : HostPart) (q : Reg8) : (s.withHost h).unset8 q = s.unset8 q := rfl
@[simp] theorem withHost_unset16 (s : State) (h : HostPart) (q : Reg16) : (s.withHost h).unset16 q = s.unset16 q := rfl
@[simp] theorem withHost_locate (s : State) (h : HostPart) (a : Phys) : (s.withHost h).locate a = s.locate a := rfl
@[simp] theorem withHost_busRead8 (s : State) (h : HostPart) (a : Phys) : (s.withHost h).busRead8 a = s.busRead8 a :=
  rfl
@[simp] theorem withHost_mem8 (s : State) (h : HostPart) (sg off : Word) : (s.withHost h).mem8 sg off = s.mem8 sg off :=
  rfl
@[simp] theorem withHost_mem16 (s : State) (h : HostPart) (sg off : Word) :
    (s.withHost h).mem16 sg off = s.mem16 sg off := rfl
@[simp] theorem withHost_unsetMem8 (s : State) (h : HostPart) (sg off : Word) :
    (s.withHost h).unsetMem8 sg off = s.unsetMem8 sg off := rfl
@[simp] theorem withHost_unsetMem16 (s : State) (h : HostPart) (sg off : Word) :
    (s.withHost h).unsetMem16 sg off = s.unsetMem16 sg off := rfl
@[simp] theorem withHost_eaOff (s : State) (h : HostPart) (m : Mem) : (s.withHost h).eaOff m = s.eaOff m := rfl
@[simp] theorem withHost_eaSeg (s : State) (h : HostPart) (m : Mem) : (s.withHost h).eaSeg m = s.eaSeg m := rfl
@[simp] theorem withHost_segOr (s : State) (h : HostPart) (d : SReg) : (s.withHost h).segOr d = s.segOr d := rfl
@[simp] theorem withHost_loc8 (s : State) (h : HostPart) (e : Rm8) : (s.withHost h).loc8 e = s.loc8 e := rfl
@[simp] theorem withHost_loc16 (s : State) (h : HostPart) (e : Rm16) : (s.withHost h).loc16 e = s.loc16 e := rfl
@[simp] theorem withHost_rm8 (s : State) (h : HostPart) (e : Rm8) : (s.withHost h).rm8 e = s.rm8 e := rfl
@[simp] theorem withHost_rm16 (s : State) (h : HostPart) (e : Rm16) : (s.withHost h).rm16 e = s.rm16 e := rfl
@[simp] theorem withHost_unsetLoc8 (s : State) (h : HostPart) (l : Loc8) : (s.withHost h).unsetLoc8 l = s.unsetLoc8 l :=
  rfl
@[simp] theorem withHost_unsetLoc16 (s : State) (h : HostPart) (l : Loc16) :
    (s.withHost h).unsetLoc16 l = s.unsetLoc16 l := rfl
@[simp] theorem withHost_src8 (s : State) (h : HostPart) (x : Src8) : (s.withHost h).src8 x = s.src8 x := rfl
@[simp] theorem withHost_src16 (s : State) (h : HostPart) (x : Src16) : (s.withHost h).src16 x = s.src16 x := rfl
@[simp] theorem withHost_ipNext (s : State) (h : HostPart) (i : Instr) : (s.withHost h).ipNext i = s.ipNext i := rfl
@[simp] theorem withHost_codeOffset (s : State) (h : HostPart) : (s.withHost h).codeOffset = s.codeOffset := rfl
@[simp] theorem withHost_top (s : State) (h : HostPart) : (s.withHost h).top = s.top := rfl
@[simp] theorem withHost_delta (s : State) (h : HostPart) (n : Word) : (s.withHost h).delta n = s.delta n := rfl
@[simp] theorem withHost_shiftCount (s : State) (h : HostPart) (c : Byte) :
    (s.withHost h).shiftCount c = s.shiftCount c := rfl
@[simp] theorem withHost_srcSeg (s : State) (h : HostPart) : (s.withHost h).srcSeg = s.srcSeg := rfl
@[simp] theorem withHost_srcElem8 (s : State) (h : HostPart) : (s.withHost h).srcElem8 = s.srcElem8 := rfl
@[simp] theorem withHost_srcElem16 (s : State) (h : HostPart) : (s.withHost h).srcElem16 = s.srcElem16 := rfl
@[simp] theorem withHost_dstElem8 (s : State) (h : HostPart) : (s.withHost h).dstElem8 = s.dstElem8 := rfl
@[simp] theorem withHost_dstElem16 (s : State) (h : HostPart) : (s.withHost h).dstElem16 = s.dstElem16 := rfl
@[simp] theorem withHost_portOwner (s : State) (h : HostPart) (p : Word) : (s.withHost h).portOwner p = s.portOwner p :=
  rfl
@[simp] theorem withHost_portRead8 (s : State) (h : HostPart) (p : Word) : (s.withHost h).portRead8 p = s.portRead8 p :=
  rfl
@[simp] theorem withHost_portRead16 (s : State) (h : HostPart) (p : Word) :
    (s.withHost h).portRead16 p = s.portRead16 p := rfl
@[simp] theorem withHost_divErrIp (s : State) (h : HostPart) (i : Instr) : (s.withHost h).divErrIp i = s.divErrIp i :=
  rfl
@[simp] theorem withHost_dxax (s : State) (h : HostPart) : (s.withHost h).dxax = s.dxax := rfl
@[simp] theorem withHost_aamdBase (s : State) (h : HostPart) (b : Byte) : (s.withHost h).aamdBase b = s.aamdBase b :=
  rfl
@[simp] theorem withHost_farSel (s : State) (h : HostPart) (m : Mem) : (s.withHost h).farSel m = s.farSel m := rfl
@[simp] theorem withHost_farOff (s : State) (h : HostPart) (m : Mem) : (s.withHost h).farOff m = s.farOff m := rfl
@[simp] theorem withHost_timer (s : State) (h : HostPart) (k : Nat) : (s.withHost h).timer k = s.timer k := rfl
@[simp] theorem withHost_channel (s : State) (h : HostPart) (k : Nat) : (s.withHost h).channel k = s.channel k := rfl
@[simp] theorem withHost_highestPending (s : State) (h : HostPart) : (s.withHost h).highestPending = s.highestPending :=
  rfl
@[simp] theorem withHost_operandView (s : State) (h : HostPart) : (s.withHost h).operandView = s.operandView := rfl
@[simp] theorem withHost_unsetRegs (s : State) (h : HostPart) (l : List Reg16) : (s.withHost h).unsetRegs l = s.unsetRegs l := by
  induction l with
  | nil => rfl
  | cons r l ih => simp [State.unsetRegs, ih]

@[simp] theorem withHost_unsetEa (s : State) (h : HostPart) (m : Mem) : (s.withHost h).unsetEa m = s.unsetEa m := by
  cases m <;> simp [State.unsetEa]

@[simp] theorem withHost_codeBytes (s : State) (h : HostPart) (off : Word) (n : Nat) :
    (s.withHost h).codeBytes off n = s.codeBytes off n := by
  induction n generalizing off with
  | zero => rfl
  | succ n ih => simp [State.codeBytes, ih]

@[simp] theorem withHost_unsetCode (s : State) (h : HostPart) (off : Word) (n : Nat) :
    (s.withHost h).unsetCode off n = s.unsetCode off n := by
  induction n generalizing off with
  | zero => rfl
  | succ n ih => simp [State.unsetCode, ih]

@[simp] theorem withHost_unsetAddr8 (s : State) (h : HostPart) (e : Rm8) :
    (s.withHost h).unsetAddr8 e = s.unsetAddr8 e := by cases e <;> simp [State.unsetAddr8]
@[simp] theorem withHost_unsetAddr16 (s : State) (h : HostPart) (e : Rm16) :
    (s.withHost h).unsetAddr16 e = s.unsetAddr16 e := by cases e <;> simp [State.unsetAddr16]
@[simp] theorem withHost_unsetSrcAddr8 (s : State) (h : HostPart) (x : Src8) :
    (s.withHost h).unsetSrcAddr8 x = s.unsetSrcAddr8 x := by cases x <;> simp [State.unsetSrcAddr8]
@[simp] theorem withHost_unsetSrcAddr16 (s : State) (h : HostPart) (x : Src16) :
    (s.withHost h).unsetSrcAddr16 x = s.unsetSrcAddr16 x := by cases x <;> simp [State.unsetSrcAddr16]
@[simp] theorem withHost_unsetSrc8 (s : State) (h : HostPart) (x : Src8) : (s.withHost h).unsetSrc8 x = s.unsetSrc8 x :=
  by cases x <;> simp [State.unsetSrc8]
@[simp] theorem withHost_unsetSrc16 (s : State) (h : HostPart) (x : Src16) :
    (s.withHost h).unsetSrc16 x = s.unsetSrc16 x := by cases x <;> simp [State.unsetSrc16]
@[simp] theorem withHost_fetch (s : State) (h : HostPart) : (s.withHost h).fetch = s.fetch := rfl

/-! ## Updates -/

@[simp] theorem withHost_record (s : State) (h : HostPart) (l : List FaultRecord) :
    (s.withHost h).record l = (s.record l).withHost h := rfl
@[simp] theorem withHost_setReg16 (s : State) (h : HostPart) (r : Reg16) (v : Word) :
    (s.withHost h).setReg16 r v = (s.setReg16 r v).withHost h := rfl
@[simp] theorem withHost_setReg8 (s : State) (h : HostPart) (r : Reg8) (v : Byte) :
    (s.withHost h).setReg8 r v = (s.setReg8 r v).withHost h := rfl
@[simp] theorem withHost_setSReg (s : State) (h : HostPart) (r : SReg) (v : Word) :
    (s.withHost h).setSReg r v = (s.setSReg r v).withHost h := by cases r <;> rfl
@[simp] theorem withHost_setFlags (s : State) (h : HostPart) (v : Word) :
    (s.withHost h).setFlags v = (s.setFlags v).withHost h := rfl
@[simp] theorem withHost_setFlag (s : State) (h : HostPart) (f : Flag) (b : Bool) :
    (s.withHost h).setFlag f b = (s.setFlag f b).withHost h := rfl
@[simp] theorem withHost_writeFlags (s : State) (h : HostPart) (v : Word) :
    (s.withHost h).writeFlags v = (s.writeFlags v).withHost h := rfl
@[simp] theorem withHost_setIp (s : State) (h : HostPart) (v : Word) :
    (s.withHost h).setIp v = (s.setIp v).withHost h := rfl
@[simp] theorem withHost_advance (s : State) (h : HostPart) (i : Instr) :
    (s.withHost h).advance i = (s.advance i).withHost h := rfl
@[simp] theorem withHost_setCsIp (s : State) (h : HostPart) (sel off : Word) :
    (s.withHost h).setCsIp sel off = (s.setCsIp sel off).withHost h := rfl
@[simp] theorem withHost_setHalted (s : State) (h : HostPart) (b : Bool) :
    (s.withHost h).setHalted b = (s.setHalted b).withHost h := rfl
@[simp] theorem withHost_setEntered (s : State) (h : HostPart) : (s.withHost h).setEntered = s.setEntered.withHost h :=
  rfl
@[simp] theorem withHost_setCur (s : State) (h : HostPart) (c : StepCtx) :
    (s.withHost h).setCur c = (s.setCur c).withHost h := rfl
@[simp] theorem withHost_setShadow (s : State) (h : HostPart) : (s.withHost h).setShadow = s.setShadow.withHost h := by
  rw [State.setShadow, State.setShadow, withHost_cfg]
  by_cases c : s.cfg.intShadow = .none
  · simp only [c, if_true]
  · simp only [c, if_false]; rfl
@[simp] theorem withHost_note16 (s : State) (h : HostPart) (r : Reg16) :
    (s.withHost h).note16 r = (s.note16 r).withHost h := rfl
@[simp] theorem withHost_note8 (s : State) (h : HostPart) (r : Reg8) :
    (s.withHost h).note8 r = (s.note8 r).withHost h := rfl
@[simp] theorem withHost_noteMem8 (s : State) (h : HostPart) (sg off : Word) :
    (s.withHost h).noteMem8 sg off = (s.noteMem8 sg off).withHost h := rfl
@[simp] theorem withHost_noteMem16 (s : State) (h : HostPart) (sg off : Word) :
    (s.withHost h).noteMem16 sg off = (s.noteMem16 sg off).withHost h := rfl
@[simp] theorem withHost_writePlace (s : State) (h : HostPart) (p : Place) (b : Byte) :
    (s.withHost h).writePlace p b = (s.writePlace p b).withHost h := by cases p <;> rfl
@[simp] theorem withHost_writeMem8 (s : State) (h : HostPart) (sg off : Word) (v : Byte) :
    (s.withHost h).writeMem8 sg off v = (s.writeMem8 sg off v).withHost h := by simp [State.writeMem8, State.busWrite8]
@[simp] theorem withHost_writeMem16 (s : State) (h : HostPart) (sg off v : Word) :
    (s.withHost h).writeMem16 sg off v = (s.writeMem16 sg off v).withHost h := by simp [State.writeMem16]
@[simp] theorem withHost_write8 (s : State) (h : HostPart) (l : Loc8) (v : Byte) :
    (s.withHost h).write8 l v = (s.write8 l v).withHost h := by cases l <;> simp [State.write8]
@[simp] theorem withHost_write16 (s : State) (h : HostPart) (l : Loc16) (v : Word) :
    (s.withHost h).write16 l v = (s.write16 l v).withHost h := by cases l <;> simp [State.write16]
@[simp] theorem withHost_setIc (s : State) (h : HostPart) (c : Ic) : (s.withHost h).setIc c = (s.setIc c).withHost h :=
  rfl
@[simp] theorem withHost_setRaised (s : State) (h : HostPart) (m : BitVec 8) :
    (s.withHost h).setRaised m = (s.setRaised m).withHost h := rfl
@[simp] theorem withHost_setTimer (s : State) (h : HostPart) (k : Nat) (t : Timer) :
    (s.withHost h).setTimer k t = (s.setTimer k t).withHost h := rfl
@[simp] theorem withHost_setPpu (s : State) (h : HostPart) (p : Ppu) :
    (s.withHost h).setPpu p = (s.setPpu p).withHost h := rfl
@[simp] theorem withHost_setChannel (s : State) (h : HostPart) (k : Nat) (c : Channel) :
    (s.withHost h).setChannel k c = (s.setChannel k c).withHost h := rfl
@[simp] theorem withHost_portWrite8 (s : State) (h : HostPart) (p : Word) (v : Byte) :
    (s.withHost h).portWrite8 p v = (s.portWrite8 p v).withHost h := by
  unfold State.portWrite8
  simp only [withHost_portOwner]
  split <;> rfl
@[simp] theorem withHost_portWrite16 (s : State) (h : HostPart) (p v : Word) :
    (s.withHost h).portWrite16 p v = (s.portWrite16 p v).withHost h := by simp [State.portWrite16]
@[simp] theorem withHost_push (s : State) (h : HostPart) (v : Word) : (s.withHost h).push v = (s.push v).withHost h :=
  by simp [State.push]
@[simp] theorem withHost_drop (s : State) (h : HostPart) : (s.withHost h).drop = s.drop.withHost h :=
  by simp [State.drop]
@[simp] theorem withHost_jumpVector (s : State) (h : HostPart) (n : Byte) :
    (s.withHost h).jumpVector n = (s.jumpVector n).withHost h := by simp [State.jumpVector]
@[simp] theorem withHost_enter (s : State) (h : HostPart) (n : Byte) (v : Word) :
    (s.withHost h).enter n v = (s.enter n v).withHost h := by simp [State.enter]
@[simp] theorem withHost_leaveInterrupt (s : State) (h : HostPart) :
    (s.withHost h).leaveInterrupt = s.leaveInterrupt.withHost h := by simp [State.leaveInterrupt]
@[simp] theorem withHost_noteEa (s : State) (h : HostPart) (m : Mem) :
    (s.withHost h).noteEa m = (s.noteEa m).withHost h := by simp [State.noteEa]
@[simp] theorem withHost_resolve8 (s : State) (h : HostPart) (e : Rm8) :
    (s.withHost h).resolve8 e = (s.resolve8 e).withHost h := by simp [State.resolve8]
@[simp] theorem withHost_resolve16 (s : State) (h : HostPart) (e : Rm16) :
    (s.withHost h).resolve16 e = (s.resolve16 e).withHost h := by simp [State.resolve16]
@[simp] theorem withHost_noteLoc8 (s : State) (h : HostPart) (l : Loc8) :
    (s.withHost h).noteLoc8 l = (s.noteLoc8 l).withHost h := by simp [State.noteLoc8]
@[simp] theorem withHost_noteLoc16 (s : State) (h : HostPart) (l : Loc16) :
    (s.withHost h).noteLoc16 l = (s.noteLoc16 l).withHost h := by simp [State.noteLoc16]
@[simp] theorem withHost_fetch8 (s : State) (h : HostPart) (e : Rm8) :
    (s.withHost h).fetch8 e = (s.fetch8 e).withHost h := by simp [State.fetch8]
@[simp] theorem withHost_fetch16 (s : State) (h : HostPart) (e : Rm16) :
    (s.withHost h).fetch16 e = (s.fetch16 e).withHost h := by simp [State.fetch16]
@[simp] theorem withHost_fetchSrc8 (s : State) (h : HostPart) (e : Rm8) (x : Src8) :
    (s.withHost h).fetchSrc8 e x = (s.fetchSrc8 e x).withHost h := by simp [State.fetchSrc8]
@[simp] theorem withHost_fetchSrc16 (s : State) (h : HostPart) (e : Rm16) (x : Src16) :
    (s.withHost h).fetchSrc16 e x = (s.fetchSrc16 e x).withHost h := by simp [State.fetchSrc16]
@[simp] theorem withHost_fetchPair8 (s : State) (h : HostPart) (e : Rm8) (x : Src8) :
    (s.withHost h).fetchPair8 e x = (s.fetchPair8 e x).withHost h := by simp [State.fetchPair8]
@[simp] theorem withHost_fetchPair16 (s : State) (h : HostPart) (e : Rm16) (x : Src16) :
    (s.withHost h).fetchPair16 e x = (s.fetchPair16 e x).withHost h := by simp [State.fetchPair16]
@[simp] theorem withHost_mov8 (s : State) (h : HostPart) (e : Rm8) (x : Src8) :
    (s.withHost h).mov8 e x = (s.mov8 e x).withHost h := by simp [State.mov8]
@[simp] theorem withHost_mov16 (s : State) (h : HostPart) (e : Rm16) (x : Src16) :
    (s.withHost h).mov16 e x = (s.mov16 e x).withHost h := by simp [State.mov16]
@[simp] theorem withHost_movFromSReg (s : State) (h : HostPart) (e : Rm16) (r : SReg) :
    (s.withHost h).movFromSReg e r = (s.movFromSReg e r).withHost h := by simp [State.movFromSReg]
@[simp] theorem withHost_movToSReg (s : State) (h : HostPart) (r : SReg) (e : Rm16) :
    (s.withHost h).movToSReg r e = (s.movToSReg r e).withHost h := by simp [State.movToSReg]
@[simp] theorem withHost_pushReg (s : State) (h : HostPart) (r : Reg16) :
    (s.withHost h).pushReg r = (s.pushReg r).withHost h := by simp [State.pushReg]
@[simp] theorem withHost_pushGeneral (s : State) (h : HostPart) (r : Reg16) :
    (s.withHost h).pushGeneral r = (s.pushGeneral r).withHost h := by
  unfold State.pushGeneral
  simp only [withHost_cfg, withHost_pushReg]
  split <;> simp
@[simp] theorem withHost_popReg (s : State) (h : HostPart) (r : Reg16) :
    (s.withHost h).popReg r = (s.popReg r).withHost h := by simp [State.popReg]
@[simp] theorem withHost_popSReg (s : State) (h : HostPart) (r : SReg) :
    (s.withHost h).popSReg r = (s.popSReg r).withHost h := by simp [State.popSReg]
@[simp] theorem withHost_popRm (s : State) (h : HostPart) (e : Rm16) :
    (s.withHost h).popRm e = (s.popRm e).withHost h := by simp [State.popRm]
@[simp] theorem withHost_pushAll (s : State) (h : HostPart) : (s.withHost h).pushAll = s.pushAll.withHost h :=
  by simp [State.pushAll]
@[simp] theorem withHost_popAll (s : State) (h : HostPart) : (s.withHost h).popAll = s.popAll.withHost h :=
  by simp [State.popAll]
@[simp] theorem withHost_xchg8 (s : State) (h : HostPart) (e : Rm8) (g : Reg8) :
    (s.withHost h).xchg8 e g = (s.xchg8 e g).withHost h := by simp [State.xchg8]
@[simp] theorem withHost_xchg16 (s : State) (h : HostPart) (e : Rm16) (g : Reg16) :
    (s.withHost h).xchg16 e g = (s.xchg16 e g).withHost h := by simp [State.xchg16]
@[simp] theorem withHost_loadFar (s : State) (h : HostPart) (r : SReg) (g : Reg16) (m : Mem) :
    (s.withHost h).loadFar r g m = (s.loadFar r g m).withHost h := by simp [State.loadFar]
@[simp] theorem withHost_translate (s : State) (h : HostPart) : (s.withHost h).translate = s.translate.withHost h :=
  by simp [State.translate]
@[simp] theorem withHost_alu8 (s : State) (h : HostPart) (op : AluOp) (e : Rm8) (x : Src8) :
    (s.withHost h).alu8 op e x = (s.alu8 op e x).withHost h := by unfold State.alu8; simp only []; split <;> simp
@[simp] theorem withHost_alu16 (s : State) (h : HostPart) (op : AluOp) (e : Rm16) (x : Src16) :
    (s.withHost h).alu16 op e x = (s.alu16 op e x).withHost h := by unfold State.alu16; simp only []; split <;> simp
@[simp] theorem withHost_test8 (s : State) (h : HostPart) (e : Rm8) (x : Src8) :
    (s.withHost h).test8 e x = (s.test8 e x).withHost h := by simp [State.test8]
@[simp] theorem withHost_test16 (s : State) (h : HostPart) (e : Rm16) (x : Src16) :
    (s.withHost h).test16 e x = (s.test16 e x).withHost h := by simp [State.test16]
@[simp] theorem withHost_unary8 (s : State) (h : HostPart) (f : Byte → Byte) (g : Byte → Word → Word) (e : Rm8) :
    (s.withHost h).unary8 f g e = (s.unary8 f g e).withHost h := by simp [State.unary8]
@[simp] theorem withHost_unary16 (s : State) (h : HostPart) (f : Word → Word) (g : Word → Word → Word) (e : Rm16) :
    (s.withHost h).unary16 f g e = (s.unary16 f g e).withHost h := by simp [State.unary16]
@[simp] theorem withHost_inc8 (s : State) (h : HostPart) (e : Rm8) : (s.withHost h).inc8 e = (s.inc8 e).withHost h :=
  by simp [State.inc8]
@[simp] theorem withHost_inc16 (s : State) (h : HostPart) (e : Rm16) :
    (s.withHost h).inc16 e = (s.inc16 e).withHost h := by simp [State.inc16]
@[simp] theorem withHost_dec8 (s : State) (h : HostPart) (e : Rm8) : (s.withHost h).dec8 e = (s.dec8 e).withHost h :=
  by simp [State.dec8]
@[simp] theorem withHost_dec16 (s : State) (h : HostPart) (e : Rm16) :
    (s.withHost h).dec16 e = (s.dec16 e).withHost h := by simp [State.dec16]
@[simp] theorem withHost_neg8 (s : State) (h : HostPart) (e : Rm8) : (s.withHost h).neg8 e = (s.neg8 e).withHost h :=
  by simp [State.neg8]
@[simp] theorem withHost_neg16 (s : State) (h : HostPart) (e : Rm16) :
    (s.withHost h).neg16 e = (s.neg16 e).withHost h := by simp [State.neg16]
@[simp] theorem withHost_not8 (s : State) (h : HostPart) (e : Rm8) : (s.withHost h).not8 e = (s.not8 e).withHost h :=
  by simp [State.not8]
@[simp] theorem withHost_not16 (s : State) (h : HostPart) (e : Rm16) :
    (s.withHost h).not16 e = (s.not16 e).withHost h := by simp [State.not16]
@[simp] theorem withHost_fetchMul8 (s : State) (h : HostPart) (e : Rm8) :
    (s.withHost h).fetchMul8 e = (s.fetchMul8 e).withHost h := by simp [State.fetchMul8]
@[simp] theorem withHost_fetchMul16 (s : State) (h : HostPart) (e : Rm16) :
    (s.withHost h).fetchMul16 e = (s.fetchMul16 e).withHost h := by simp [State.fetchMul16]
@[simp] theorem withHost_fetchDiv8 (s : State) (h : HostPart) (e : Rm8) :
    (s.withHost h).fetchDiv8 e = (s.fetchDiv8 e).withHost h := by simp [State.fetchDiv8]
@[simp] theorem withHost_fetchDiv16 (s : State) (h : HostPart) (e : Rm16) :
    (s.withHost h).fetchDiv16 e = (s.fetchDiv16 e).withHost h := by simp [State.fetchDiv16]
@[simp] theorem withHost_mul8 (s : State) (h : HostPart) (e : Rm8) : (s.withHost h).mul8 e = (s.mul8 e).withHost h := by
  simp only [State.mul8, withHost_fetchMul8, withHost_setReg16, withHost_flags, withHost_reg8, withHost_rm8, withHost_setFlags]
  rfl
@[simp] theorem withHost_mul16 (s : State) (h : HostPart) (e : Rm16) :
    (s.withHost h).mul16 e = (s.mul16 e).withHost h := by
  simp only [State.mul16, withHost_fetchMul16, withHost_setReg16, withHost_flags, withHost_reg16, withHost_rm16, withHost_setFlags]
  rfl
@[simp] theorem withHost_imul8 (s : State) (h : HostPart) (e : Rm8) : (s.withHost h).imul8 e = (s.imul8 e).withHost h :=
  by simp [State.imul8]
@[simp] theorem withHost_imul16 (s : State) (h : HostPart) (e : Rm16) :
    (s.withHost h).imul16 e = (s.imul16 e).withHost h := by simp [State.imul16]
@[simp] theorem withHost_imul3 (s : State) (h : HostPart) (g : Reg16) (e : Rm16) (i : Word) :
    (s.withHost h).imul3 g e i = (s.imul3 g e i).withHost h := by simp [State.imul3]
@[simp] theorem withHost_divError (s : State) (h : HostPart) (i : Instr) :
    (s.withHost h).divError i = (s.divError i).withHost h := by simp [State.divError]
@[simp] theorem withHost_divWrite8 (s : State) (h : HostPart) (i : Instr) (op : Config.UndefOp) (n : Word) (d : Byte) (q : Option (Byte × Byte)) :
    (s.withHost h).divWrite8 i op n d q = (s.divWrite8 i op n d q).withHost h := by cases q <;> simp [State.divWrite8]
@[simp] theorem withHost_divWrite16 (s : State) (h : HostPart) (i : Instr) (op : Config.UndefOp) (n : BitVec 32) (d : Word) (q : Option (Word × Word)) :
    (s.withHost h).divWrite16 i op n d q = (s.divWrite16 i op n d q).withHost h :=
  by cases q <;> simp [State.divWrite16]
@[simp] theorem withHost_div8 (s : State) (h : HostPart) (i : Instr) (e : Rm8) :
    (s.withHost h).div8 i e = (s.div8 i e).withHost h := by simp [State.div8]
@[simp] theorem withHost_div16 (s : State) (h : HostPart) (i : Instr) (e : Rm16) :
    (s.withHost h).div16 i e = (s.div16 i e).withHost h := by simp [State.div16]
@[simp] theorem withHost_idiv8 (s : State) (h : HostPart) (i : Instr) (e : Rm8) :
    (s.withHost h).idiv8 i e = (s.idiv8 i e).withHost h := by simp [State.idiv8]
@[simp] theorem withHost_idiv16 (s : State) (h : HostPart) (i : Instr) (e : Rm16) :
    (s.withHost h).idiv16 i e = (s.idiv16 i e).withHost h := by simp [State.idiv16]
@[simp] theorem withHost_decimalAdjust (s : State) (h : HostPart) (op : Config.UndefOp) (f : Byte → Bool → Bool → Byte × Bool × Bool) :
    (s.withHost h).decimalAdjust op f = (s.decimalAdjust op f).withHost h := by simp [State.decimalAdjust]
@[simp] theorem withHost_asciiAdjust (s : State) (h : HostPart) (op : Config.UndefOp) (f : Bool → Word → Bool → Word) :
    (s.withHost h).asciiAdjust op f = (s.asciiAdjust op f).withHost h := by
  unfold State.asciiAdjust
  simp only [withHost_reg8, withHost_flag]
  by_cases c : asciiAdjusts (s.reg8 .al) (s.flag .af) = true <;> simp [c]
@[simp] theorem withHost_shift8 (s : State) (h : HostPart) (op : ShiftOp) (e : Rm8) (b : Byte) :
    (s.withHost h).shift8 op e b = (s.shift8 op e b).withHost h := by
  by_cases c : s.shiftCount b = 0 <;> simp [State.shift8, c]
@[simp] theorem withHost_shift16 (s : State) (h : HostPart) (op : ShiftOp) (e : Rm16) (b : Byte) :
    (s.withHost h).shift16 op e b = (s.shift16 op e b).withHost h := by
  by_cases c : s.shiftCount b = 0 <;> simp [State.shift16, c]
@[simp] theorem withHost_bump (s : State) (h : HostPart) (r : Reg16) (n : Word) :
    (s.withHost h).bump r n = (s.bump r n).withHost h := by simp [State.bump]
@[simp] theorem withHost_noteSrcElem8 (s : State) (h : HostPart) :
    (s.withHost h).noteSrcElem8 = s.noteSrcElem8.withHost h := by simp [State.noteSrcElem8]
@[simp] theorem withHost_noteSrcElem16 (s : State) (h : HostPart) :
    (s.withHost h).noteSrcElem16 = s.noteSrcElem16.withHost h := by simp [State.noteSrcElem16]
@[simp] theorem withHost_noteDstElem8 (s : State) (h : HostPart) :
    (s.withHost h).noteDstElem8 = s.noteDstElem8.withHost h := by simp [State.noteDstElem8]
@[simp] theorem withHost_noteDstElem16 (s : State) (h : HostPart) :
    (s.withHost h).noteDstElem16 = s.noteDstElem16.withHost h := by simp [State.noteDstElem16]
@[simp] theorem withHost_putDst8 (s : State) (h : HostPart) (v : Byte) :
    (s.withHost h).putDst8 v = (s.putDst8 v).withHost h := by simp [State.putDst8]
@[simp] theorem withHost_putDst16 (s : State) (h : HostPart) (v : Word) :
    (s.withHost h).putDst16 v = (s.putDst16 v).withHost h := by simp [State.putDst16]
@[simp] theorem withHost_movsElem8 (s : State) (h : HostPart) : (s.withHost h).movsElem8 = s.movsElem8.withHost h :=
  by simp [State.movsElem8]
@[simp] theorem withHost_movsElem16 (s : State) (h : HostPart) : (s.withHost h).movsElem16 = s.movsElem16.withHost h :=
  by simp [State.movsElem16]
@[simp] theorem withHost_cmpsElem8 (s : State) (h : HostPart) : (s.withHost h).cmpsElem8 = s.cmpsElem8.withHost h :=
  by simp [State.cmpsElem8]
@[simp] theorem withHost_cmpsElem16 (s : State) (h : HostPart) : (s.withHost h).cmpsElem16 = s.cmpsElem16.withHost h :=
  by simp [State.cmpsElem16]
@[simp] theorem withHost_scasElem8 (s : State) (h : HostPart) : (s.withHost h).scasElem8 = s.scasElem8.withHost h :=
  by simp [State.scasElem8]
@[simp] theorem withHost_scasElem16 (s : State) (h : HostPart) : (s.withHost h).scasElem16 = s.scasElem16.withHost h :=
  by simp [State.scasElem16]
@[simp] theorem withHost_lodsElem8 (s : State) (h : HostPart) : (s.withHost h).lodsElem8 = s.lodsElem8.withHost h :=
  by simp [State.lodsElem8]
@[simp] theorem withHost_lodsElem16 (s : State) (h : HostPart) : (s.withHost h).lodsElem16 = s.lodsElem16.withHost h :=
  by simp [State.lodsElem16]
@[simp] theorem withHost_stosElem8 (s : State) (h : HostPart) : (s.withHost h).stosElem8 = s.stosElem8.withHost h :=
  by simp [State.stosElem8]
@[simp] theorem withHost_stosElem16 (s : State) (h : HostPart) : (s.withHost h).stosElem16 = s.stosElem16.withHost h :=
  by simp [State.stosElem16]
@[simp] theorem withHost_insElem8 (s : State) (h : HostPart) : (s.withHost h).insElem8 = s.insElem8.withHost h :=
  by simp [State.insElem8]
@[simp] theorem withHost_insElem16 (s : State) (h : HostPart) : (s.withHost h).insElem16 = s.insElem16.withHost h :=
  by simp [State.insElem16]
@[simp] theorem withHost_outsElem8 (s : State) (h : HostPart) : (s.withHost h).outsElem8 = s.outsElem8.withHost h :=
  by simp [State.outsElem8]
@[simp] theorem withHost_outsElem16 (s : State) (h : HostPart) : (s.withHost h).outsElem16 = s.outsElem16.withHost h :=
  by simp [State.outsElem16]
@[simp] theorem withHost_jumpRel (s : State) (h : HostPart) (i : Instr) (v : Word) :
    (s.withHost h).jumpRel i v = (s.jumpRel i v).withHost h := by simp [State.jumpRel]
@[simp] theorem withHost_branch (s : State) (h : HostPart) (i : Instr) (c : Bool) (v : Byte) :
    (s.withHost h).branch i c v = (s.branch i c v).withHost h := by cases c <;> simp [State.branch]
@[simp] theorem withHost_loop (s : State) (h : HostPart) (i : Instr) (c : Bool) (v : Byte) :
    (s.withHost h).loop i c v = (s.loop i c v).withHost h := by
  simp only [State.loop, withHost_note16, withHost_setReg16, withHost_reg16, withHost_branch]
  rfl
@[simp] theorem withHost_noteFar (s : State) (h : HostPart) (m : Mem) :
    (s.withHost h).noteFar m = (s.noteFar m).withHost h := by simp [State.noteFar]
@[simp] theorem withHost_callFar (s : State) (h : HostPart) (i : Instr) (sel off : Word) :
    (s.withHost h).callFar i sel off = (s.callFar i sel off).withHost h := by simp [State.callFar]
@[simp] theorem withHost_copyDisplay (s : State) (h : HostPart) (n : Nat) :
    (s.withHost h).copyDisplay n = (s.copyDisplay n).withHost h := by
  induction n generalizing s with
  | zero => rfl
  | succ n ih => simp [State.copyDisplay, ih]
@[simp] theorem withHost_enterFrame (s : State) (h : HostPart) (v : Word) (n : Nat) :
    (s.withHost h).enterFrame v n = (s.enterFrame v n).withHost h :=
  by unfold State.enterFrame; simp only []; split <;> simp
@[simp] theorem withHost_leaveFrame (s : State) (h : HostPart) : (s.withHost h).leaveFrame = s.leaveFrame.withHost h :=
  by simp [State.leaveFrame]
@[simp] theorem withHost_prefixSeg (s : State) (h : HostPart) (r : SReg) :
    (s.withHost h).prefixSeg r = (s.prefixSeg r).withHost h := by simp [State.prefixSeg]
@[simp] theorem withHost_prefixRep (s : State) (h : HostPart) (k : RepKind) :
    (s.withHost h).prefixRep k = (s.prefixRep k).withHost h := by simp [State.prefixRep]
@[simp] theorem withHost_prefixLock (s : State) (h : HostPart) : (s.withHost h).prefixLock = s.prefixLock.withHost h :=
  by simp [State.prefixLock]
@[simp] theorem withHost_noteCode (s : State) (h : HostPart) (n : Nat) :
    (s.withHost h).noteCode n = (s.noteCode n).withHost h := by simp [State.noteCode]
@[simp] theorem withHost_gapStep (s : State) (h : HostPart) (n : Nat) :
    (s.withHost h).gapStep n = (s.gapStep n).withHost h := by
  simp [State.gapStep]
  rfl

/-- A string instruction, where its element does the same whatever the host part is. -/
theorem withHost_stringStep {elem : State → State} (he : ∀ (s : State) (h : HostPart), elem (s.withHost h) = (elem s).withHost h)
    (s : State) (h : HostPart) (i : Instr) (stops : RepKind → Word → Bool) :
    (s.withHost h).stringStep i elem stops = (s.stringStep i elem stops).withHost h := by
  unfold State.stringStep
  simp only [withHost_cur]
  split
  · simp [he]
  · simp only [withHost_reg16, withHost_note16, he, withHost_setReg16, withHost_flags]
    split
    · simp
    · split <;> simp

/-! ## Instructions -/

/-- An instruction does the same whatever the host part is (R586, R594). -/
theorem exec_withHost (i : Instr) (s : State) (h : HostPart) :
    exec i (s.withHost h) = mapNext (fun t => t.withHost h) (exec i s) := by
  cases i with
  | addEbGb e g => simp [exec, execAddEbGb]
  | addEvGv e g => simp [exec, execAddEvGv]
  | addGbEb g e => simp [exec, execAddGbEb]
  | addGvEv g e => simp [exec, execAddGvEv]
  | addAlIb imm => simp [exec, execAddAlIb]
  | addAxIw imm => simp [exec, execAddAxIw]
  | addEbIb e imm => simp [exec, execAddEbIb]
  | addEvIw e imm => simp [exec, execAddEvIw]
  | addEbIbAlias e imm => simp [exec, execAddEbIbAlias]
  | addEvIbs e imm => simp [exec, execAddEvIbs]
  | orEbGb e g => simp [exec, execOrEbGb]
  | orEvGv e g => simp [exec, execOrEvGv]
  | orGbEb g e => simp [exec, execOrGbEb]
  | orGvEv g e => simp [exec, execOrGvEv]
  | orAlIb imm => simp [exec, execOrAlIb]
  | orAxIw imm => simp [exec, execOrAxIw]
  | orEbIb e imm => simp [exec, execOrEbIb]
  | orEvIw e imm => simp [exec, execOrEvIw]
  | orEbIbAlias e imm => simp [exec, execOrEbIbAlias]
  | orEvIbs e imm => simp [exec, execOrEvIbs]
  | adcEbGb e g => simp [exec, execAdcEbGb]
  | adcEvGv e g => simp [exec, execAdcEvGv]
  | adcGbEb g e => simp [exec, execAdcGbEb]
  | adcGvEv g e => simp [exec, execAdcGvEv]
  | adcAlIb imm => simp [exec, execAdcAlIb]
  | adcAxIw imm => simp [exec, execAdcAxIw]
  | adcEbIb e imm => simp [exec, execAdcEbIb]
  | adcEvIw e imm => simp [exec, execAdcEvIw]
  | adcEbIbAlias e imm => simp [exec, execAdcEbIbAlias]
  | adcEvIbs e imm => simp [exec, execAdcEvIbs]
  | sbbEbGb e g => simp [exec, execSbbEbGb]
  | sbbEvGv e g => simp [exec, execSbbEvGv]
  | sbbGbEb g e => simp [exec, execSbbGbEb]
  | sbbGvEv g e => simp [exec, execSbbGvEv]
  | sbbAlIb imm => simp [exec, execSbbAlIb]
  | sbbAxIw imm => simp [exec, execSbbAxIw]
  | sbbEbIb e imm => simp [exec, execSbbEbIb]
  | sbbEvIw e imm => simp [exec, execSbbEvIw]
  | sbbEbIbAlias e imm => simp [exec, execSbbEbIbAlias]
  | sbbEvIbs e imm => simp [exec, execSbbEvIbs]
  | andEbGb e g => simp [exec, execAndEbGb]
  | andEvGv e g => simp [exec, execAndEvGv]
  | andGbEb g e => simp [exec, execAndGbEb]
  | andGvEv g e => simp [exec, execAndGvEv]
  | andAlIb imm => simp [exec, execAndAlIb]
  | andAxIw imm => simp [exec, execAndAxIw]
  | andEbIb e imm => simp [exec, execAndEbIb]
  | andEvIw e imm => simp [exec, execAndEvIw]
  | andEbIbAlias e imm => simp [exec, execAndEbIbAlias]
  | andEvIbs e imm => simp [exec, execAndEvIbs]
  | subEbGb e g => simp [exec, execSubEbGb]
  | subEvGv e g => simp [exec, execSubEvGv]
  | subGbEb g e => simp [exec, execSubGbEb]
  | subGvEv g e => simp [exec, execSubGvEv]
  | subAlIb imm => simp [exec, execSubAlIb]
  | subAxIw imm => simp [exec, execSubAxIw]
  | subEbIb e imm => simp [exec, execSubEbIb]
  | subEvIw e imm => simp [exec, execSubEvIw]
  | subEbIbAlias e imm => simp [exec, execSubEbIbAlias]
  | subEvIbs e imm => simp [exec, execSubEvIbs]
  | xorEbGb e g => simp [exec, execXorEbGb]
  | xorEvGv e g => simp [exec, execXorEvGv]
  | xorGbEb g e => simp [exec, execXorGbEb]
  | xorGvEv g e => simp [exec, execXorGvEv]
  | xorAlIb imm => simp [exec, execXorAlIb]
  | xorAxIw imm => simp [exec, execXorAxIw]
  | xorEbIb e imm => simp [exec, execXorEbIb]
  | xorEvIw e imm => simp [exec, execXorEvIw]
  | xorEbIbAlias e imm => simp [exec, execXorEbIbAlias]
  | xorEvIbs e imm => simp [exec, execXorEvIbs]
  | cmpEbGb e g => simp [exec, execCmpEbGb]
  | cmpEvGv e g => simp [exec, execCmpEvGv]
  | cmpGbEb g e => simp [exec, execCmpGbEb]
  | cmpGvEv g e => simp [exec, execCmpGvEv]
  | cmpAlIb imm => simp [exec, execCmpAlIb]
  | cmpAxIw imm => simp [exec, execCmpAxIw]
  | cmpEbIb e imm => simp [exec, execCmpEbIb]
  | cmpEvIw e imm => simp [exec, execCmpEvIw]
  | cmpEbIbAlias e imm => simp [exec, execCmpEbIbAlias]
  | cmpEvIbs e imm => simp [exec, execCmpEvIbs]
  | incR16 r => simp [exec, execIncR16]
  | decR16 r => simp [exec, execDecR16]
  | pushR16 r => simp [exec, execPushR16]
  | popR16 r => simp [exec, execPopR16]
  | boundGvMa g m => simp only [exec, execBoundGvMa]; split <;> simp_all
  | pushIw imm => simp [exec, execPushIw]
  | imulGvEvIw g e imm => simp [exec, execImulGvEvIw]
  | pushIbs imm => simp [exec, execPushIbs]
  | imulGvEvIbs g e imm => simp [exec, execImulGvEvIbs]
  | joRel8 rel => simp [exec, execJoRel8]
  | jnoRel8 rel => simp [exec, execJnoRel8]
  | jbRel8 rel => simp [exec, execJbRel8]
  | jnbRel8 rel => simp [exec, execJnbRel8]
  | jzRel8 rel => simp [exec, execJzRel8]
  | jnzRel8 rel => simp [exec, execJnzRel8]
  | jbeRel8 rel => simp [exec, execJbeRel8]
  | jaRel8 rel => simp [exec, execJaRel8]
  | jsRel8 rel => simp [exec, execJsRel8]
  | jnsRel8 rel => simp [exec, execJnsRel8]
  | jpRel8 rel => simp [exec, execJpRel8]
  | jnpRel8 rel => simp [exec, execJnpRel8]
  | jlRel8 rel => simp [exec, execJlRel8]
  | jgeRel8 rel => simp [exec, execJgeRel8]
  | jleRel8 rel => simp [exec, execJleRel8]
  | jgRel8 rel => simp [exec, execJgRel8]
  | testEbGb e g => simp [exec, execTestEbGb]
  | testEvGv e g => simp [exec, execTestEvGv]
  | xchgEbGb e g => simp [exec, execXchgEbGb]
  | xchgEvGv e g => simp [exec, execXchgEvGv]
  | movEbGb e g => simp [exec, execMovEbGb]
  | movEvGv e g => simp [exec, execMovEvGv]
  | movGbEb g e => simp [exec, execMovGbEb]
  | movGvEv g e => simp [exec, execMovGvEv]
  | movEwEs e => simp [exec, execMovEwEs]
  | movEwCs e => simp [exec, execMovEwCs]
  | movEwSs e => simp [exec, execMovEwSs]
  | movEwDs e => simp [exec, execMovEwDs]
  | leaGvM g m => simp [exec, execLeaGvM]
  | movEsEw e => simp [exec, execMovEsEw]
  | movSsEw e => simp [exec, execMovSsEw]
  | movDsEw e => simp [exec, execMovDsEw]
  | popEv e => simp [exec, execPopEv]
  | xchgR16Ax r => simp [exec, execXchgR16Ax]
  | callAp off sg => simp [exec, execCallAp]
  | movAlOb o => simp [exec, execMovAlOb]
  | movAxOw o => simp [exec, execMovAxOw]
  | movObAl o => simp [exec, execMovObAl]
  | movOwAx o => simp [exec, execMovOwAx]
  | testAlIb imm => simp [exec, execTestAlIb]
  | testAxIw imm => simp [exec, execTestAxIw]
  | movR8Ib r imm => simp [exec, execMovR8Ib]
  | movR16Iw r imm => simp [exec, execMovR16Iw]
  | rolEbIb e c => simp [exec, execRolEbIb]
  | rolEvIb e c => simp [exec, execRolEvIb]
  | rolEb1 e => simp [exec, execRolEb1]
  | rolEv1 e => simp [exec, execRolEv1]
  | rolEbCl e => simp [exec, execRolEbCl]
  | rolEvCl e => simp [exec, execRolEvCl]
  | rorEbIb e c => simp [exec, execRorEbIb]
  | rorEvIb e c => simp [exec, execRorEvIb]
  | rorEb1 e => simp [exec, execRorEb1]
  | rorEv1 e => simp [exec, execRorEv1]
  | rorEbCl e => simp [exec, execRorEbCl]
  | rorEvCl e => simp [exec, execRorEvCl]
  | rclEbIb e c => simp [exec, execRclEbIb]
  | rclEvIb e c => simp [exec, execRclEvIb]
  | rclEb1 e => simp [exec, execRclEb1]
  | rclEv1 e => simp [exec, execRclEv1]
  | rclEbCl e => simp [exec, execRclEbCl]
  | rclEvCl e => simp [exec, execRclEvCl]
  | rcrEbIb e c => simp [exec, execRcrEbIb]
  | rcrEvIb e c => simp [exec, execRcrEvIb]
  | rcrEb1 e => simp [exec, execRcrEb1]
  | rcrEv1 e => simp [exec, execRcrEv1]
  | rcrEbCl e => simp [exec, execRcrEbCl]
  | rcrEvCl e => simp [exec, execRcrEvCl]
  | shlEbIb e c => simp [exec, execShlEbIb]
  | shlEvIb e c => simp [exec, execShlEvIb]
  | shlEb1 e => simp [exec, execShlEb1]
  | shlEv1 e => simp [exec, execShlEv1]
  | shlEbCl e => simp [exec, execShlEbCl]
  | shlEvCl e => simp [exec, execShlEvCl]
  | shrEbIb e c => simp [exec, execShrEbIb]
  | shrEvIb e c => simp [exec, execShrEvIb]
  | shrEb1 e => simp [exec, execShrEb1]
  | shrEv1 e => simp [exec, execShrEv1]
  | shrEbCl e => simp [exec, execShrEbCl]
  | shrEvCl e => simp [exec, execShrEvCl]
  | sarEbIb e c => simp [exec, execSarEbIb]
  | sarEvIb e c => simp [exec, execSarEvIb]
  | sarEb1 e => simp [exec, execSarEb1]
  | sarEv1 e => simp [exec, execSarEv1]
  | sarEbCl e => simp [exec, execSarEbCl]
  | sarEvCl e => simp [exec, execSarEvCl]
  | retIw imm => simp [exec, execRetIw]
  | lesGvMp g m => simp [exec, execLesGvMp]
  | ldsGvMp g m => simp [exec, execLdsGvMp]
  | movEbIb e imm => simp [exec, execMovEbIb]
  | movEvIw e imm => simp [exec, execMovEvIw]
  | enterIwIb size level => simp [exec, execEnterIwIb]
  | retfIw imm => simp [exec, execRetfIw]
  | intIb n => simp [exec, execIntIb]
  | aamIb imm => simp only [exec, execAamIb]; split <;> simp_all
  | aadIb imm => simp [exec, execAadIb]
  | esc n x e => simp [exec, execEsc]
  | loopnzRel8 rel => simp [exec, execLoopnzRel8]
  | loopzRel8 rel => simp [exec, execLoopzRel8]
  | loopRel8 rel => simp [exec, execLoopRel8]
  | jcxzRel8 rel => simp only [exec, execJcxzRel8, withHost_note16, withHost_reg16, withHost_branch, mapNext_next]; rfl
  | inAlIb p => simp [exec, execInAlIb]
  | inAxIb p => simp [exec, execInAxIb]
  | outIbAl p => simp [exec, execOutIbAl]
  | outIbAx p => simp [exec, execOutIbAx]
  | callRel16 rel => simp [exec, execCallRel16]
  | jmpRel16 rel => simp [exec, execJmpRel16]
  | jmpAp off sg => simp [exec, execJmpAp]
  | jmpRel8 rel => simp [exec, execJmpRel8]
  | testEbIb e imm => simp [exec, execTestEbIb]
  | testEvIw e imm => simp [exec, execTestEvIw]
  | notEb e => simp [exec, execNotEb]
  | notEv e => simp [exec, execNotEv]
  | negEb e => simp [exec, execNegEb]
  | negEv e => simp [exec, execNegEv]
  | mulEb e => simp [exec, execMulEb]
  | mulEv e => simp [exec, execMulEv]
  | imulEb e => simp [exec, execImulEb]
  | imulEv e => simp [exec, execImulEv]
  | divEb e => simp [exec, execDivEb]
  | divEv e => simp [exec, execDivEv]
  | idivEb e => simp [exec, execIdivEb]
  | idivEv e => simp [exec, execIdivEv]
  | incEb e => simp [exec, execIncEb]
  | decEb e => simp [exec, execDecEb]
  | incEv e => simp [exec, execIncEv]
  | decEv e => simp [exec, execDecEv]
  | callEv e => simp [exec, execCallEv]
  | callMp m => simp [exec, execCallMp]
  | jmpEv e => simp [exec, execJmpEv]
  | jmpMp m => simp [exec, execJmpMp]
  | pushEv e => simp [exec, execPushEv]
  | pushEs => simp [exec, execPushEs]
  | pushCs => simp [exec, execPushCs]
  | pushSs => simp [exec, execPushSs]
  | pushDs => simp [exec, execPushDs]
  | popEs => simp [exec, execPopEs]
  | popSs => simp [exec, execPopSs]
  | popDs => simp [exec, execPopDs]
  | pfxEs => simp [exec, execPfxEs]
  | pfxCs => simp [exec, execPfxCs]
  | pfxSs => simp [exec, execPfxSs]
  | pfxDs => simp [exec, execPfxDs]
  | pfxLock => simp [exec, execPfxLock]
  | pfxRepne => simp [exec, execPfxRepne]
  | pfxRep => simp [exec, execPfxRep]
  | daa => simp [exec, execDaa]
  | das => simp [exec, execDas]
  | aaa => simp [exec, execAaa]
  | aas => simp [exec, execAas]
  | pusha => simp [exec, execPusha]
  | popa => simp [exec, execPopa]
  | insb => simp [exec, execInsb, withHost_stringStep withHost_insElem8]
  | insw => simp [exec, execInsw, withHost_stringStep withHost_insElem16]
  | outsb => simp [exec, execOutsb, withHost_stringStep withHost_outsElem8]
  | outsw => simp [exec, execOutsw, withHost_stringStep withHost_outsElem16]
  | nop => simp [exec, execNop]
  | cbw => simp [exec, execCbw]
  | cwd => simp only [exec, execCwd]; split <;> simp_all
  | wait => simp [exec, execWait]
  | pushf => simp [exec, execPushf]
  | popf => simp [exec, execPopf]
  | sahf => simp [exec, execSahf]
  | lahf => simp [exec, execLahf]
  | movsb => simp [exec, execMovsb, withHost_stringStep withHost_movsElem8]
  | movsw => simp [exec, execMovsw, withHost_stringStep withHost_movsElem16]
  | cmpsb => simp [exec, execCmpsb, withHost_stringStep withHost_cmpsElem8]
  | cmpsw => simp [exec, execCmpsw, withHost_stringStep withHost_cmpsElem16]
  | stosb => simp [exec, execStosb, withHost_stringStep withHost_stosElem8]
  | stosw => simp [exec, execStosw, withHost_stringStep withHost_stosElem16]
  | lodsb => simp [exec, execLodsb, withHost_stringStep withHost_lodsElem8]
  | lodsw => simp [exec, execLodsw, withHost_stringStep withHost_lodsElem16]
  | scasb => simp [exec, execScasb, withHost_stringStep withHost_scasElem8]
  | scasw => simp [exec, execScasw, withHost_stringStep withHost_scasElem16]
  | ret => simp [exec, execRet]
  | leave => simp [exec, execLeave]
  | retf => simp [exec, execRetf]
  | int3 => simp [exec, execInt3]
  | into => simp only [exec, execInto]; split <;> simp_all
  | iret => simp [exec, execIret]
  | xlat => simp [exec, execXlat]
  | inAlDx => simp [exec, execInAlDx]
  | inAxDx => simp [exec, execInAxDx]
  | outDxAl => simp [exec, execOutDxAl]
  | outDxAx => simp [exec, execOutDxAx]
  | hlt => simp [exec, execHlt]
  | cmc => simp [exec, execCmc]
  | clc => simp [exec, execClc]
  | stc => simp [exec, execStc]
  | cli => simp [exec, execCli]
  | sti => simp [exec, execSti]
  | cld => simp [exec, execCld]
  | std => simp [exec, execStd]

end Sys2Proof.Machine
end

