-- ==== Sys2Proof/Laws/MulDiv.lean ====
section
/-! SUPPORT. What the operand reads of multiplication and division leave, and the values of products, quotients and
remainders. -/

namespace Sys2Proof.Machine

/-- A state that differs from `s` in the fault record alone. -/
def OnlyRecords (s u : State) : Prop := ∃ l, u = s.record l

theorem onlyRecords_refl (s : State) : OnlyRecords s s := ⟨[], by simp⟩

theorem OnlyRecords.record {s u : State} (h : OnlyRecords s u) (l : List FaultRecord) : OnlyRecords s (u.record l) := by
  obtain ⟨m, rfl⟩ := h
  exact ⟨m ++ l, by simp⟩

theorem onlyRecords_fetchMul8 (s : State) (e : Rm8) : OnlyRecords s (s.fetchMul8 e) :=
  (((onlyRecords_refl s).record _).record _).record _

theorem onlyRecords_fetchMul16 (s : State) (e : Rm16) : OnlyRecords s (s.fetchMul16 e) :=
  (((onlyRecords_refl s).record _).record _).record _

theorem onlyRecords_fetchDiv8 (s : State) (e : Rm8) : OnlyRecords s (s.fetchDiv8 e) :=
  (((onlyRecords_refl s).record _).record _).record _

theorem onlyRecords_fetchDiv16 (s : State) (e : Rm16) : OnlyRecords s (s.fetchDiv16 e) :=
  ((((onlyRecords_refl s).record _).record _).record _).record _

theorem onlyRecords_fetch16 (s : State) (e : Rm16) : OnlyRecords s (s.fetch16 e) :=
  ((onlyRecords_refl s).record _).record _

theorem onlyRecords_fetch8 (s : State) (e : Rm8) : OnlyRecords s (s.fetch8 e) :=
  ((onlyRecords_refl s).record _).record _

theorem onlyRecords_note16 (s : State) (r : Reg16) : OnlyRecords s (s.note16 r) := (onlyRecords_refl s).record _

theorem onlyRecords_note8 (s : State) (r : Reg8) : OnlyRecords s (s.note8 r) := (onlyRecords_refl s).record _

theorem onlyRecords_noteFar (s : State) (m : Mem) : OnlyRecords s (s.noteFar m) :=
  (((onlyRecords_refl s).record _).record _).record _

/-- The frame of an instruction that writes one general register and the flags. -/
theorem plain_setReg {s u : State} {i : Instr} (h : OnlyRecords s u) (r : Reg16) (v fl : Word) :
    Plain i s (((u.setReg16 r v).setFlags fl).advance i) ∧ SameMem s (((u.setReg16 r v).setFlags fl).advance i)
      ∧ SetWordReg s (((u.setReg16 r v).setFlags fl).advance i) r v := by
  obtain ⟨l, rfl⟩ := h
  refine ⟨⟨⟨by constructor <;> simp, by simp, by simp, by simp, by simp⟩, by simp, by simp⟩,
    SameStores.sameMem (by constructor <;> simp), by simp,
    fun q hq => ?_⟩
  have : q ≠ r := by simpa using hq
  simp [this]

/-- The frame of an instruction that writes two general registers and the flags. -/
theorem plain_setRegs {s u : State} {i : Instr} (h : OnlyRecords s u) (r p : Reg16) (v w fl : Word) :
    Plain i s ((((u.setReg16 r v).setReg16 p w).setFlags fl).advance i)
      ∧ SameMem s ((((u.setReg16 r v).setReg16 p w).setFlags fl).advance i)
      ∧ SameRegsBut [p, r] s ((((u.setReg16 r v).setReg16 p w).setFlags fl).advance i) := by
  obtain ⟨l, rfl⟩ := h
  refine ⟨⟨⟨by constructor <;> simp, by simp, by simp, by simp, by simp⟩, by simp, by simp⟩,
    SameStores.sameMem (by constructor <;> simp),
    fun q hq => ?_⟩
  have : q ≠ r ∧ q ≠ p := by
    constructor <;> (intro e; exact hq (by simp [e]))
  simp [this.1, this.2]

theorem hiByte_toNat (v : Word) : (hiByte v).toNat = v.toNat / 256 := by
  have := v.isLt
  simp [hiByte, Nat.shiftRight_eq_div_pow]
  omega

theorem loByte_toNat (v : Word) : (loByte v).toNat = v.toNat % 256 := by
  simp [loByte]

theorem append_toNat {n m : Nat} (a : BitVec n) (b : BitVec m) : (a ++ b).toNat = a.toNat * 2 ^ m + b.toNat := by
  rw [BitVec.toNat_append, Nat.shiftLeft_eq, Nat.mul_comm a.toNat, Nat.two_pow_add_eq_or_of_lt b.isLt]

/-- A signed value of a width is in its range. -/
theorem toInt_bounds8 (a : Byte) : -128 ≤ a.toInt ∧ a.toInt ≤ 127 := by
  have := BitVec.toInt_lt (x := a); have := BitVec.le_toInt (x := a); simp at *; omega

theorem toInt_bounds16 (a : Word) : -32768 ≤ a.toInt ∧ a.toInt ≤ 32767 := by
  have := BitVec.toInt_lt (x := a); have := BitVec.le_toInt (x := a); simp at *; omega

theorem mul_bounds {a b A B : Int} (h1 : -A ≤ a) (h2 : a ≤ A) (h3 : -B ≤ b) (h4 : b ≤ B) :
    -(A * B) ≤ a * b ∧ a * b ≤ A * B := by
  have hA : 0 ≤ A := by omega
  have h : |a * b| ≤ A * B := by
    rw [abs_mul]
    exact mul_le_mul (abs_le.mpr ⟨h1, h2⟩) (abs_le.mpr ⟨h3, h4⟩) (abs_nonneg b) hA
  exact abs_le.mp h

theorem toInt_ofInt_of_bounds {w : Nat} {x : Int} (h1 : -(2 ^ w) ≤ x) (h2 : x < 2 ^ w) : (BitVec.ofInt (w + 1) x).toInt = x := by
  rw [BitVec.toInt_ofInt]
  apply Int.bmod_eq_of_le <;> push_cast [pow_succ] <;> omega

theorem signedBig_eq (w : Nat) (p : Int) : signedBig w p = overflows w p := by
  unfold signedBig overflows
  rw [Bool.eq_iff_iff]
  simp only [Bool.or_eq_true, decide_eq_true_eq]
  omega

/-- DX ++ AX as a signed number. -/
theorem append_toInt (a b : Word) : (a ++ b : BitVec 32).toInt = a.toInt * 65536 + b.toNat := by
  have h := append_toNat a b
  have ha := a.isLt
  have hb := b.isLt
  simp only [BitVec.toInt_eq_toNat_cond, h]
  split <;> split <;> push_cast <;> omega

/-- A number of width 32 in two words. -/
theorem words_toInt (v : BitVec 32) :
    ((v.extractLsb' 16 16 : Word)).toInt * 65536 + ((v.extractLsb' 0 16 : Word)).toNat = v.toInt := by
  rw [← append_toInt]
  congr 1
  apply BitVec.eq_of_toNat_eq
  rw [append_toNat]
  have := v.isLt
  simp [Nat.shiftRight_eq_div_pow]
  omega

theorem words_toNat (v : BitVec 32) :
    ((v.extractLsb' 16 16 : Word)).toNat * 65536 + ((v.extractLsb' 0 16 : Word)).toNat = v.toNat := by
  have := v.isLt
  simp [Nat.shiftRight_eq_div_pow]
  omega

/-- The unsigned quotient and remainder where there is no divide error (R274). -/
theorem divU_some {w n d : Nat} (hd : d ≠ 0) (hq : n / d < 2 ^ w) :
    divU w n d = some (BitVec.ofNat w (n / d), BitVec.ofNat w (n % d)) := by
  have : ¬(2 ^ w - 1 < n / d) := by omega
  simp [divU, hd, this]

theorem divU_none {w n d : Nat} (h : d = 0 ∨ 2 ^ w ≤ n / d) : divU w n d = none := by
  unfold divU
  rcases h with h | h
  · simp [h]
  · split
    · rfl
    · rw [if_pos]
      have : 0 < 2 ^ w := by positivity
      omega

/-- The signed quotient and remainder where there is no divide error (R275). -/
theorem divS_some {c : Cfg} {w : Nat} {n d : Int} (hd : d ≠ 0) (hq : idivFits c w (n.tdiv d)) :
    divS c.idivMinOk w n d = some (BitVec.ofInt w (n.tdiv d), BitVec.ofInt w (n.tmod d)) := by
  obtain ⟨h1, h2⟩ := hq
  have hm : n - n.tdiv d * d = n.tmod d := by rw [Int.tmod_def, Int.mul_comm]
  unfold divS
  simp only [if_neg hd, hm]
  rw [if_neg]
  rw [not_or, not_lt, not_lt]
  exact ⟨h1, by omega⟩

theorem divS_none {c : Cfg} {w : Nat} {n d : Int} (h : d = 0 ∨ ¬idivFits c w (n.tdiv d)) : divS c.idivMinOk w n d = none := by
  unfold divS
  by_cases hd : d = 0
  · simp [hd]
  · have h' : ¬idivFits c w (n.tdiv d) := by tauto
    simp only [if_neg hd]
    rw [if_pos]
    unfold idivFits at h'
    by_contra hc
    rw [not_or, not_lt, not_lt] at hc
    exact h' ⟨hc.1, by omega⟩

/-- A remainder is smaller than its divisor. -/
theorem tmod_bounds {n d B : Int} (hd : d ≠ 0) (h1 : -B ≤ d) (h2 : d ≤ B) : -B < n.tmod d ∧ n.tmod d < B := by
  have h : (n.tmod d).natAbs < d.natAbs := by
    rw [Int.natAbs_tmod]
    exact Nat.mod_lt _ (Int.natAbs_pos.mpr hd)
  omega

/-- The halves of a word register that holds two bytes. -/
theorem reg8_of_append {u : State} {p : Reg16} {q r : Byte} (h : u.reg16 p = r ++ q) (k : Reg8)
    (hk : Reg8.parent k = p) : u.reg8 k = if Reg8.isHigh k then r else q := by
  have hq := q.isLt
  subst hk
  unfold State.reg8
  rw [h]
  split <;> apply BitVec.eq_of_toNat_eq
  · rw [hiByte_toNat, append_toNat]
    omega
  · rw [loByte_toNat, append_toNat]
    omega

/-- What a division of width 8 that does not trap leaves (R274, R275). -/
theorem divWrite8_some {s u : State} (h : OnlyRecords s u) (i : Instr) (op : Config.UndefOp) (n : Word) (d q r : Byte) :
    let t := u.divWrite8 i op n d (some (q, r))
    Plain i s t ∧ SameMem s t ∧ SameRegsBut [.ax] s t ∧ t.reg8 .al = q ∧ t.reg8 .ah = r ∧ KeptFlags arithFlags s.flags t.flags := by
  have hp := plain_setReg (i := i) h .ax (r ++ q : Word) (divFlags op 8 n.toNat d.toNat u.flags)
  refine ⟨hp.1, hp.2.1, hp.2.2.2, reg8_of_append hp.2.2.1 .al rfl, reg8_of_append hp.2.2.1 .ah rfl, ?_⟩
  obtain ⟨l, rfl⟩ := h
  simpa [State.divWrite8] using divFlags_spec op 8 n.toNat d.toNat s.flags

/-- What a division of width 16 that does not trap leaves (R274, R275). -/
theorem divWrite16_some {s u : State} (h : OnlyRecords s u) (i : Instr) (op : Config.UndefOp) (n : BitVec 32) (d q r : Word) :
    let t := u.divWrite16 i op n d (some (q, r))
    Plain i s t ∧ SameMem s t ∧ SameRegsBut [.ax, .dx] s t ∧ t.reg16 .ax = q ∧ t.reg16 .dx = r
      ∧ KeptFlags arithFlags s.flags t.flags := by
  have hp := plain_setRegs (i := i) h .ax .dx q r (divFlags op 16 n.toNat d.toNat u.flags)
  refine ⟨hp.1, hp.2.1, hp.2.2.mono (by simp), by simp [State.divWrite16], by simp [State.divWrite16], ?_⟩
  obtain ⟨l, rfl⟩ := h
  simpa [State.divWrite16] using divFlags_spec op 16 n.toNat d.toNat s.flags

/-- The flags of AAM and AAD (R280, R281). -/
theorem aamdFlags_spec (op : Config.UndefOp) (ax : Word) (base al : Byte) (fl : Word) :
    SzpOf al (aamdFlags op ax base al fl) ∧ KeptFlags arithFlags fl (aamdFlags op ax base al fl) := by
  refine ⟨(szpOf_setSZP fl al).of_eq ?_ ?_ ?_, KeptFlags.draw _ _ _ _ _ _ ((KeptFlags.rfl' _ _).szp _ (by decide) (by decide) (by decide)) (by decide)⟩ <;>
    exact flagGet_drawFlags _ _ _ _ _ _ _ _ (by decide)

end Sys2Proof.Machine
end

