-- ==== Sys2Proof/Laws/Stack.lean ====
section
/-! SUPPORT. The stack and the entry of an interrupt: what pushing, popping and entering do, in the terms of
Machine/Shapes.lean. -/

namespace Sys2Proof.Machine

namespace SameStores

theorem mem8 {s u : State} (h : SameStores s u) (sg off : Word) : u.mem8 sg off = s.mem8 sg off := h.busRead8 _

theorem mem16 {s u : State} (h : SameStores s u) (sg off : Word) : u.mem16 sg off = s.mem16 sg off := by
  simp [State.mem16, h.mem8]

/-- The same byte is stored in both. -/
theorem writePlace {s u : State} (h : SameStores s u) (p : Place) (v : Byte) :
    SameStores (s.writePlace p v) (u.writePlace p v) := by
  cases p <;> constructor <;> simp [State.writePlace, h.ram, h.rom, h.save, h.banks, h.cfg, h.ext]

theorem writeMem8 {s u : State} (h : SameStores s u) (sg off : Word) (v : Byte) :
    SameStores (s.writeMem8 sg off v) (u.writeMem8 sg off v) := by
  unfold State.writeMem8 State.busWrite8
  rw [h.locate]
  exact h.writePlace _ v

theorem writeMem16 {s u : State} (h : SameStores s u) (sg off v : Word) :
    SameStores (s.writeMem16 sg off v) (u.writeMem16 sg off v) :=
  (h.writeMem8 sg off _).writeMem8 sg _ _

theorem storesDown {s u : State} (h : SameStores s u) (sg top : Word) (l : List Word) :
    SameStores (storesDown s sg top l) (storesDown u sg top l) := by
  induction l generalizing s u top with
  | nil => exact h
  | cons v vs ih => exact ih (h.writeMem16 sg (top - 2#16) v) (top - 2#16)

end SameStores

theorem OnlyRecords.untouched {s u : State} (h : OnlyRecords s u) : Untouched s u := by
  obtain ⟨l, rfl⟩ := h
  exact untouched_record s l

theorem OnlyRecords.sameCore {s u : State} (h : OnlyRecords s u) : SameCore s u := by
  obtain ⟨l, rfl⟩ := h
  exact ⟨by constructor <;> simp, by simp, by simp, by simp, by simp⟩

theorem SameCore.trans {s t u : State} (h : SameCore s t) (k : SameCore t u) : SameCore s u := by
  refine ⟨?_, k.halted.trans h.halted, k.shadow.trans h.shadow, k.cur.trans h.cur, h.faults.trans k.faults⟩
  have a := h.outside
  have b := k.outside
  exact ⟨b.ic.trans a.ic, b.timers.trans a.timers, b.ppu.trans a.ppu, b.apu.trans a.apu, b.banks.trans a.banks,
    b.rom.trans a.rom, b.saveSize.trans a.saveSize, b.rem.trans a.rem, b.elapsed.trans a.elapsed, b.mode.trans a.mode,
    b.samples.trans a.samples, b.raised.trans a.raised, b.trace.trans a.trace, b.input.trans a.input, b.cfg.trans a.cfg, b.ext.trans a.ext,
    b.diag.trans a.diag⟩

theorem SetWordReg.trans {s t u : State} {r : Reg16} {v w : Word} (h : SetWordReg s t r v) (k : SetWordReg t u r w) :
    SetWordReg s u r w := ⟨k.1, h.2.trans k.2⟩

/-- Storing one word more below the others. -/
theorem storesDown_append (s : State) (sg top : Word) (l : List Word) (v : Word) :
    storesDown s sg top (l ++ [v])
      = (storesDown s sg top l).writeMem16 sg (top - BitVec.ofNat 16 (2 * l.length) - 2#16) v := by
  induction l generalizing s top with
  | nil => simp [storesDown]
  | cons w l ih =>
    simp only [List.cons_append, storesDown, ih, List.length_cons]
    congr 2
    rw [BitVec.sub_sub]
    congr 1
    apply BitVec.eq_of_toNat_eq
    simp
    omega

/-- A push keeps everything but SP, memory and the fault record. -/
theorem push_sameCore (s : State) (v : Word) : SameCore s (s.push v) :=
  ⟨by constructor <;> simp, by simp, by simp, by simp, by simp [State.push, State.note16]⟩

theorem push_setSp (s : State) (v : Word) : SetWordReg s (s.push v) .sp (s.reg16 .sp - 2#16) := by
  refine ⟨by simp, fun r hr => ?_⟩
  have : r ≠ .sp := by simpa using hr
  simp [State.push, State.note16, this]

/-- The memory after a push is that after the store of its word. -/
theorem push_stores (s : State) (v : Word) : SameStores (s.writeMem16 s.segs.ss (s.reg16 .sp - 2#16) v) (s.push v) :=
  SameStores.writeMem16 (by constructor <;> simp [State.note16]) _ _ _

/-- The state after words were pushed (R206). -/
structure Pushed (s : State) (l : List Word) (u : State) : Prop where
  core : SameCore s u
  segs : u.segs = s.segs
  flags : u.flags = s.flags
  ip : u.ip = s.ip
  sp : SetWordReg s u .sp (s.reg16 .sp - BitVec.ofNat 16 (2 * l.length))
  stores : SameStores (storesDown s s.segs.ss (s.reg16 .sp) l) u

theorem pushed_nil {s u : State} (h : OnlyRecords s u) : Pushed s [] u := by
  obtain ⟨k, rfl⟩ := h
  exact ⟨OnlyRecords.sameCore ⟨k, rfl⟩, by simp, by simp, by simp, ⟨by simp, fun r _ => by simp⟩,
    (untouched_record s k).stores⟩

/-- One word more. -/
theorem Pushed.push {s u : State} {l : List Word} (h : Pushed s l u) (v : Word) : Pushed s (l ++ [v]) (u.push v) := by
  refine ⟨h.core.trans (push_sameCore u v), by simp [h.segs], by simp [h.flags], by simp [h.ip], ?_, ?_⟩
  · have hp := push_setSp u v
    rw [h.sp.1] at hp
    have : s.reg16 .sp - BitVec.ofNat 16 (2 * l.length) - 2#16 = s.reg16 .sp - BitVec.ofNat 16 (2 * (l ++ [v]).length) := by
      rw [BitVec.sub_sub]
      congr 1
      apply BitVec.eq_of_toNat_eq
      simp
      omega
    rw [this] at hp
    exact h.sp.trans hp
  · rw [storesDown_append]
    have hw := h.stores.writeMem16 s.segs.ss (s.reg16 .sp - BitVec.ofNat 16 (2 * l.length) - 2#16) v
    have hp := push_stores u v
    rw [h.segs, h.sp.1] at hp
    exact hw.trans hp

/-- A record between pushes. -/
theorem Pushed.record {s u : State} {l : List Word} (h : Pushed s l u) (k : List FaultRecord) : Pushed s l (u.record k) :=
  ⟨h.core.trans (OnlyRecords.sameCore ⟨k, rfl⟩), by simp [h.segs], by simp [h.flags], by simp [h.ip],
    ⟨by simpa using h.sp.1, fun r hr => by simpa using h.sp.2 r hr⟩, h.stores.trans (untouched_record u k).stores⟩

/-- `Push` as an instruction's only effect. -/
theorem pushed_pushes {s u : State} {i : Instr} {v : Word} (h : Pushed s [v] u) (hx : exec i s = .next (u.advance i)) :
    Pushes s i v := by
  refine ⟨_, hx, ⟨h.core.trans ⟨by constructor <;> simp, by simp, by simp, by simp, by simp⟩, by simp [h.segs], ?_⟩, ?_, ?_, ?_⟩
  · simp [State.ipNext, h.ip, h.core.cur]
  · simp [h.flags]
  · exact ⟨by simpa using h.sp.1, fun r hr => by simpa using h.sp.2 r hr⟩
  · have hw : SameMem _ _ := h.stores.sameMem.trans (SameStores.sameMem (s := u) (u := u.advance i) (by constructor <;> simp))
    exact (stored16_writeMem16 (untouched_record s []) s.segs.ss (s.reg16 .sp - 2#16) v).of_same (by simpa [storesDown] using hw)

theorem setFlags_writePlace (s : State) (fl : Word) (p : Place) (v : Byte) :
    (s.setFlags fl).writePlace p v = (s.writePlace p v).setFlags fl := by cases p <;> rfl

theorem setFlags_writeMem8 (s : State) (fl : Word) (sg off : Word) (v : Byte) :
    (s.setFlags fl).writeMem8 sg off v = (s.writeMem8 sg off v).setFlags fl := setFlags_writePlace ..

/-- Writing FLAGS commutes with a push. -/
theorem setFlags_push (s : State) (fl v : Word) : (s.setFlags fl).push v = (s.push v).setFlags fl := by
  have h : ((s.setFlags fl).note16 .sp).setReg16 .sp (s.reg16 .sp - 2#16)
      = ((s.note16 .sp).setReg16 .sp (s.reg16 .sp - 2#16)).setFlags fl := rfl
  unfold State.push
  simp only [setFlags_reg16, setFlags_segs, h, State.writeMem16, setFlags_writeMem8]

/-- The jump of an entry: what it changes, given the pushes and FLAGS (R490). -/
theorem jumpVector_eq (w : State) (fl : Word) (n : Byte) :
    ∃ k, ((w.setFlags fl).jumpVector n).setEntered
      = { w with
          flags := fl
          faults := w.faults ++ k
          segs := { w.segs with cs := w.mem16 0#16 (ivtOffset n + 2#16) }
          ip := w.mem16 0#16 (ivtOffset n)
          halted := false
          cur := { w.cur with entered := true } } := by
  refine ⟨w.unsetMem16 0#16 (ivtOffset n) ++ w.unsetMem16 0#16 (ivtOffset n + 2#16), ?_⟩
  simp only [State.jumpVector, State.noteMem16, record_record, setFlags_mem16, record_unsetMem16,
    setFlags_unsetMem16]
  rfl

/-- An interrupt entry (R490). -/
theorem enter_entered {s u : State} (h : OnlyRecords s u) (n : Byte) (ret : Word) : Entered s n ret (u.enter n ret) := by
  have hp : Pushed s [s.flags, s.segs.cs, ret] (((u.push s.flags).push s.segs.cs).push ret) :=
    (((pushed_nil h).push s.flags).push s.segs.cs).push ret
  have hs : u.segs = s.segs := (pushed_nil h).segs
  have hf : u.flags = s.flags := (pushed_nil h).flags
  generalize hw : ((u.push s.flags).push s.segs.cs).push ret = w at hp
  have he : u.enter n ret
      = ((w.setFlags (flagPut (flagPut s.flags .if_ false) .tf false)).jumpVector n).setEntered := by
    have h2 : ∀ (a : State) (x y : Word), (a.setFlags x).setFlags y = a.setFlags y := fun _ _ _ => rfl
    rw [← hw]
    simp only [State.enter, State.setFlag, setFlags_push, hf, setFlags_segs, push_segs, hs, push_flags, setFlags_flags, h2]
  obtain ⟨k, hk⟩ := jumpVector_eq w (flagPut (flagPut s.flags .if_ false) .tf false) n
  rw [hk] at he
  have hw' : SameStores w (u.enter n ret) := by rw [he]; exact ⟨rfl, rfl, rfl, rfl, rfl, rfl⟩
  have hiv : ivtOffset n = BitVec.ofNat 16 (4 * n.toNat) := by
    apply BitVec.eq_of_toNat_eq
    have := n.isLt
    simp [ivtOffset, zextByte, Nat.shiftLeft_eq]
    omega
  have hiv2 : ivtOffset n + 2#16 = BitVec.ofNat 16 (4 * n.toNat + 2) := by
    rw [hiv]
    apply BitVec.eq_of_toNat_eq
    simp
  have ho := hp.core.outside
  refine ⟨?_, ?_, ?_, ?_, ?_, ?_, ?_, ?_, ?_, (hp.stores.trans hw').sameMem, ?_, ?_⟩
  · rw [he]
    exact ⟨ho.ic, ho.timers, ho.ppu, ho.apu, ho.banks, ho.rom, ho.saveSize, ho.rem, ho.elapsed, ho.mode, ho.samples, ho.raised,
      ho.trace, ho.input, ho.cfg, ho.ext, ho.diag⟩
  · rw [he]; exact hp.core.shadow
  · rw [he, ← hp.core.cur]
  · rw [he]; exact hp.core.faults.trans (List.prefix_append _ _)
  · rw [he]
  · rw [he]; simp
  · rw [he]; simp
  · rw [he]; exact ((KeptFlags.rfl' _ _).put (by decide) _).put (by decide) _
  · rw [he]; exact ⟨hp.sp.1, fun r hr => hp.sp.2 r hr⟩
  · rw [hw'.mem16, ← hiv, he]
  · rw [hw'.mem16, ← hiv2, he, ← hp.segs]

end Sys2Proof.Machine
end

