-- ==== Sys2Proof/Laws/Moves.lean ====
section
/-! SUPPORT. What moves, pops and loads of segment registers do, in the terms of Machine/Shapes.lean. -/

namespace Sys2Proof.Machine

/-- The frame of an instruction that writes E of width 8 and falls through. -/
theorem plain_put8 {s u : State} (h : OnlyRecords s u) (i : Instr) (p : Loc8) (v : Byte) :
    Plain i s ((u.write8 p v).advance i) := by
  obtain ⟨l, rfl⟩ := h
  exact ⟨⟨by constructor <;> simp, by simp, by simp, by simp, by simp⟩, by simp, by simp⟩

/-- The frame of an instruction that writes E of width 16 and falls through. -/
theorem plain_put16 {s u : State} (h : OnlyRecords s u) (i : Instr) (p : Loc16) (v : Word) :
    Plain i s ((u.write16 p v).advance i) := by
  obtain ⟨l, rfl⟩ := h
  exact ⟨⟨by constructor <;> simp, by simp, by simp, by simp, by simp⟩, by simp, by simp⟩

/-- `dst <- v` of width 8, after some reads. -/
theorem moves8 {s u : State} {i : Instr} {e : Rm8} {v : Byte} (h : OnlyRecords s u)
    (hx : exec i s = .next ((u.write8 (s.loc8 e) v).advance i)) : Moves8 s i e v := by
  refine ⟨_, hx, plain_put8 h i _ v, ?_, (wrote8_write8 h.untouched e v).of_untouched (untouched_setIp _ _)⟩
  obtain ⟨l, rfl⟩ := h
  simp

/-- `dst <- v` of width 16, after some reads. -/
theorem moves16 {s u : State} {i : Instr} {e : Rm16} {v : Word} (h : OnlyRecords s u)
    (hx : exec i s = .next ((u.write16 (s.loc16 e) v).advance i)) : Moves16 s i e v := by
  refine ⟨_, hx, plain_put16 h i _ v, ?_, (wrote16_write16 h.untouched e v).of_untouched (untouched_setIp _ _)⟩
  obtain ⟨l, rfl⟩ := h
  simp

theorem onlyRecords_resolve16 (s : State) (e : Rm16) : OnlyRecords s (s.resolve16 e) := (onlyRecords_refl s).record _

theorem onlyRecords_noteEa (s : State) (m : Mem) : OnlyRecords s (s.noteEa m) := (onlyRecords_refl s).record _

theorem onlyRecords_noteMem8 (s : State) (sg off : Word) : OnlyRecords s (s.noteMem8 sg off) := (onlyRecords_refl s).record _

theorem onlyRecords_noteMem16 (s : State) (sg off : Word) : OnlyRecords s (s.noteMem16 sg off) :=
  (onlyRecords_refl s).record _

theorem OnlyRecords.trans {s t u : State} (h : OnlyRecords s t) (k : OnlyRecords t u) : OnlyRecords s u := by
  obtain ⟨l, rfl⟩ := h
  obtain ⟨m, rfl⟩ := k
  exact ⟨l ++ m, by simp⟩

/-- An access at the segment of an overridable operand (R153, R166). -/
theorem segOr_ds (s : State) : s.segOr .ds = sourceSeg s := by
  unfold State.segOr sourceSeg
  cases s.cur.segOvr <;> rfl

/-- The state after some words were popped: SP is `n` higher (R207). -/
structure Popped (s : State) (n : Word) (u : State) : Prop where
  core : SameCore s u
  segs : u.segs = s.segs
  flags : u.flags = s.flags
  ip : u.ip = s.ip
  sp : SetWordReg s u .sp (s.reg16 .sp + n)
  stores : SameStores s u

/-- `Pop` (R207). -/
theorem Popped.drop {s u : State} {n : Word} (h : Popped s n u) : Popped s (n + 2#16) u.drop := by
  refine ⟨h.core.trans ⟨by constructor <;> simp, by simp, by simp, by simp, ?_⟩, by simp [h.segs], by simp [h.flags],
    ?_, ⟨?_, fun r hr => ?_⟩, h.stores.trans ?_⟩
  · simp [State.drop, State.note16, State.noteMem16]
  · simp [h.ip]
  · rw [drop_reg16, if_pos rfl, h.sp.1, BitVec.add_assoc]
  · have hn : r ≠ .sp := by simpa using hr
    have := h.sp.2 r hr
    simpa [State.drop, State.note16, State.noteMem16, hn] using this
  · constructor <;> simp

theorem popped_nil {s u : State} (h : OnlyRecords s u) : Popped s 0#16 u := by
  obtain ⟨k, rfl⟩ := h
  exact ⟨OnlyRecords.sameCore ⟨k, rfl⟩, by simp, by simp, by simp, ⟨by simp, fun r _ => by simp⟩,
    (untouched_record s k).stores⟩

/-- The word that the next pop gives. -/
theorem Popped.top {s u : State} {n : Word} (h : Popped s n u) : u.top = stackWord s n := by
  unfold State.top stackWord
  rw [h.stores.mem16, h.segs, h.sp.1]
  rfl

theorem top_eq (s : State) : s.top = topWord s := by
  have := (popped_nil (onlyRecords_refl s)).top
  exact this

theorem popped_one (s : State) : Popped s 2#16 s.drop := by
  simpa using (popped_nil (onlyRecords_refl s)).drop

/-- A register is pushed after others (R208, R215). -/
theorem Pushed.pushReg {s u : State} {l : List Word} (h : Pushed s l u) {r : Reg16} (hr : r ≠ .sp) :
    Pushed s (l ++ [s.reg16 r]) (u.pushReg r) := by
  have := (h.sp.2 r (by simpa using hr)).1
  have h2 := (h.record (u.unset16 r)).push (u.reg16 r)
  rw [this] at h2
  simpa [State.pushReg, State.note16, this] using h2

/-- The display copies of ENTER (R409): SP and BP go down together, each copy is read and stored in turn. -/
structure Copied (v : State) (n : Nat) (w v' : State) : Prop where
  core : SameCore v v'
  segs : v'.segs = v.segs
  flags : v'.flags = v.flags
  ip : v'.ip = v.ip
  regs : SameRegsBut [.sp, .bp] v v'
  sp : v'.reg16 .sp = v.reg16 .sp - BitVec.ofNat 16 (2 * n)
  stores : SameStores (copiesDown w v.segs.ss (v.reg16 .bp) (v.reg16 .sp) n) v'

theorem copyDisplay_copied {w v : State} (n : Nat) (h : SameStores w v) : Copied v n w (v.copyDisplay n) := by
  induction n generalizing w v with
  | zero =>
    exact ⟨OnlyRecords.sameCore (onlyRecords_refl v), rfl, rfl, rfl, fun _ _ => ⟨rfl, rfl⟩, by simp [State.copyDisplay], h⟩
  | succ n ih =>
    have e : v.copyDisplay (n + 1) = ((((v.note16 .bp).setReg16 .bp (v.reg16 .bp - 2#16)).noteMem16 v.segs.ss
        (v.reg16 .bp - 2#16)).push (v.mem16 v.segs.ss (v.reg16 .bp - 2#16))).copyDisplay n := by
      simp [State.copyDisplay, State.note16]
    rw [e]
    generalize hx : (((v.note16 .bp).setReg16 .bp (v.reg16 .bp - 2#16)).noteMem16 v.segs.ss (v.reg16 .bp - 2#16)).push
      (v.mem16 v.segs.ss (v.reg16 .bp - 2#16)) = x
    have hst : SameStores (w.writeMem16 v.segs.ss (v.reg16 .sp - 2#16) (w.mem16 v.segs.ss (v.reg16 .bp - 2#16))) x := by
      rw [← hx, ← h.mem16]
      refine (h.writeMem16 _ _ _).trans (SameStores.trans ?_ (push_stores _ _))
      simp only [State.noteMem16, State.note16, record_segs, setReg16_segs, record_reg16, setReg16_reg16]
      rw [if_neg (by decide)]
      exact SameStores.writeMem16 (by constructor <;> simp) _ _ _
    have hc := ih hst
    have h1 : x.segs = v.segs := by rw [← hx]; simp [State.noteMem16, State.note16]
    have h2 : x.reg16 .bp = v.reg16 .bp - 2#16 := by rw [← hx]; simp [State.noteMem16, State.note16]
    have h3 : x.reg16 .sp = v.reg16 .sp - 2#16 := by rw [← hx]; simp [State.noteMem16, State.note16]
    refine ⟨SameCore.trans ?_ hc.core, hc.segs.trans h1, hc.flags.trans ?_, hc.ip.trans ?_, SameRegsBut.trans ?_ hc.regs, ?_, ?_⟩
    · rw [← hx]
      refine SameCore.trans ?_ (push_sameCore _ _)
      exact ⟨by constructor <;> simp [State.noteMem16, State.note16], by simp [State.noteMem16, State.note16],
        by simp [State.noteMem16, State.note16], by simp [State.noteMem16, State.note16],
        by simp [State.noteMem16, State.note16]⟩
    · rw [← hx]; simp [State.noteMem16, State.note16]
    · rw [← hx]; simp [State.noteMem16, State.note16]
    · intro r hr
      have hs : r ≠ .sp ∧ r ≠ .bp := by simpa using hr
      rw [← hx]
      simp [State.push, State.noteMem16, State.note16, hs.1, hs.2]
    · rw [hc.sp, h3, BitVec.sub_sub]
      congr 1
      apply BitVec.eq_of_toNat_eq
      simp
      omega
    · have := hc.stores
      rw [h1, h2, h3] at this
      exact this

end Sys2Proof.Machine
end

