-- ==== Sys2Proof/Laws/Strings.lean ====
section
/-! SUPPORT. What a string instruction does around its element (43_string.md R361, R369), in the terms of
Machine/Shapes.lean. -/

namespace Sys2Proof.Machine

/-- A string instruction runs as `StringRuns` says where its element does `P`, leaves CX, IP and the decode state alone, and
`P` says nothing of CX and IP. -/
theorem stringStep_runs {s : State} {i : Instr} {elem : State → State} {P : State → Prop} {stops : RepKind → Word → Bool}
    (hx : exec i s = .next (s.stringStep i elem stops))
    (he : ∀ u, OnlyRecords s u →
      P (elem u) ∧ (elem u).reg16 .cx = s.reg16 .cx ∧ (elem u).ip = s.ip ∧ (elem u).cur = s.cur)
    (hcx : ∀ t v, P t → P (t.setReg16 .cx v)) (hip : ∀ t v, P t → P (t.setIp v)) : StringRuns s i P stops := by
  refine ⟨fun h => ?_, fun k h hc => ?_, fun k h hc => ?_⟩
  · have e := he s (onlyRecords_refl s)
    refine ⟨(elem s).advance i, by rw [hx]; simp only [State.stringStep, h], hip _ _ e.1, by simpa using e.2.1, ?_⟩
    simp [State.advance, State.ipNext, e.2.2.1, e.2.2.2]
  · refine ⟨(s.note16 .cx).advance i, by rw [hx]; simp only [State.stringStep, h, if_pos hc], plain_of_record _, ?_⟩
    exact ⟨by simp [State.note16], fun r _ => by simp [State.note16], SameStores.sameMem (by constructor <;> simp [State.note16])⟩
  · have e := he (s.note16 .cx) (onlyRecords_note16 s .cx)
    generalize hw : elem (s.note16 .cx) = w at e
    have hstep : exec i s = .next (if (w.reg16 .cx - 1#16) = 0#16 ∨ stops k w.flags = true then
        (w.setReg16 .cx (w.reg16 .cx - 1#16)).advance i else w.setReg16 .cx (w.reg16 .cx - 1#16)) := by
      rw [hx]
      simp only [State.stringStep, h, if_neg hc, hw, setReg16_reg16, setReg16_flags, if_true]
    rw [e.2.1] at hstep
    have hn : ∀ v, (w.setReg16 .cx v).ipNext i = s.ipNext i := fun v => by
      simp [State.ipNext, e.2.2.1, e.2.2.2]
    split at hstep
    · rename_i hq
      refine ⟨_, hstep, hip _ _ (hcx _ _ e.1), by simp, ?_⟩
      simp [hn, hq]
    · rename_i hq
      refine ⟨_, hstep, hcx _ _ e.1, by simp, ?_⟩
      simp [e.2.2.1, hq]

/-- An index register moves by one element (R360). -/
theorem stepped_eq (s : State) (r : Reg16) (n : Word) : s.reg16 r + s.delta n = stepped s r n := by
  unfold stepped State.delta State.flag
  split
  · rw [BitVec.zero_sub, BitVec.sub_eq_add_neg]
  · rfl

end Sys2Proof.Machine
end

