-- ==== Sys2Proof/Laws/Reads.lean ====
section
/-! SUPPORT. What the shared operations record, in the terms of Machine/Reads.lean (10_state.md R53, R70, R80). -/

namespace Sys2Proof.Machine

/-! ## Lists of reads -/

@[simp] theorem entries_nil (s : State) : entries s [] = [] := rfl

@[simp] theorem entries_cons (s : State) (r : Read) (l : List Read) : entries s (r :: l) = entriesOf s r ++ entries s l := rfl

@[simp] theorem entries_append (s : State) (l m : List Read) : entries s (l ++ m) = entries s l ++ entries s m := by
  simp [entries]

/-- A read records the same in two states with the same marks and the same RAM. -/
theorem entriesOf_congr {s u : State} (h1 : u.unset = s.unset) (h2 : SameStores s u) (r : Read) :
    entriesOf u r = entriesOf s r := by
  cases r with
  | half q => cases q <;> simp [entriesOf, unsetByteReads, h1]
  | word r => cases r <;> simp [entriesOf, unsetWordReads, unsetByteReads, h1]
  | byte sg off => simp [entriesOf, h2.locate, h2.sameMem.marks]
  | pair sg off => simp [entriesOf, h2.locate, h2.sameMem.marks]

/-- A read of memory records the same in two states with the same RAM. -/
theorem entriesOf_pair_congr {s u : State} (h : SameStores s u) (sg off : Word) :
    entriesOf u (.pair sg off) = entriesOf s (.pair sg off) := by
  simp [entriesOf, h.locate, h.sameMem.marks]

/-- A read of memory records the same in two states with the same RAM. -/
theorem entriesOf_byte_congr {s u : State} (h : SameStores s u) (sg off : Word) :
    entriesOf u (.byte sg off) = entriesOf s (.byte sg off) := by
  simp [entriesOf, h.locate, h.sameMem.marks]

@[simp] theorem record_entriesOf (s : State) (k : List FaultRecord) (r : Read) : entriesOf (s.record k) r = entriesOf s r :=
  entriesOf_congr (s := s) rfl (by constructor <;> rfl) r

@[simp] theorem setFlags_entriesOf (s : State) (fl : Word) (r : Read) : entriesOf (s.setFlags fl) r = entriesOf s r :=
  entriesOf_congr (s := s) rfl (by constructor <;> rfl) r

/-- A 16-bit register that was written is set. -/
@[simp] theorem setReg16_entriesOf_word (s : State) (r q : Reg16) (v : Word) :
    entriesOf (s.setReg16 r v) (.word q) = if q = r then [] else entriesOf s (.word q) := by
  cases r <;> cases q <;> rfl

@[simp] theorem setReg16_entriesOf_pair (s : State) (r : Reg16) (v sg off : Word) :
    entriesOf (s.setReg16 r v) (.pair sg off) = entriesOf s (.pair sg off) :=
  entriesOf_pair_congr (s := s) (by constructor <;> rfl) sg off

@[simp] theorem writeMem16_entriesOf_word (s : State) (r : Reg16) (sg off v : Word) :
    entriesOf (s.writeMem16 sg off v) (.word r) = entriesOf s (.word r) := by
  have h : (s.writeMem16 sg off v).unset = s.unset := by simp
  cases r <;> simp only [entriesOf, unsetWordReads, unsetByteReads, h]

/-! ## Single reads -/

theorem unset8_eq (s : State) (q : Reg8) : s.unset8 q = entriesOf s (.half q) := by cases q <;> rfl

theorem unset16_eq (s : State) (r : Reg16) : s.unset16 r = entriesOf s (.word r) := by
  cases r <;> simp [State.unset16, entriesOf, unsetWordReads, Reg16.halves, unset8_eq] <;> rfl

theorem unsetMem8_eq (s : State) (sg off : Word) : s.unsetMem8 sg off = entriesOf s (.byte sg off) := unsetPlace_eq ..

theorem unsetMem16_eq (s : State) (sg off : Word) : s.unsetMem16 sg off = entriesOf s (.pair sg off) := by
  simp [State.unsetMem16, unsetMem8_eq, entriesOf]

theorem unsetRegs_eq (s : State) (l : List Reg16) : s.unsetRegs l = entries s (l.map .word) := by
  induction l with
  | nil => rfl
  | cons r l ih => simp [State.unsetRegs, ih, unset16_eq]

theorem unsetEa_eq (s : State) (m : Mem) : s.unsetEa m = entries s (addrOf m) := by
  cases m <;> simp [State.unsetEa, addrOf, unsetRegs_eq]

theorem unsetAddr8_eq (s : State) (e : Rm8) : s.unsetAddr8 e = entries s (addr8 e) := by
  cases e <;> simp [State.unsetAddr8, addr8, unsetEa_eq]

theorem unsetAddr16_eq (s : State) (e : Rm16) : s.unsetAddr16 e = entries s (addr16 e) := by
  cases e <;> simp [State.unsetAddr16, addr16, unsetEa_eq]

theorem unsetLoc8_eq (s : State) (e : Rm8) : s.unsetLoc8 (s.loc8 e) = entries s (value8 s e) := by
  cases e <;> simp [State.unsetLoc8, State.loc8, value8, unset8_eq, unsetMem8_eq]

theorem unsetLoc16_eq (s : State) (e : Rm16) : s.unsetLoc16 (s.loc16 e) = entries s (value16 s e) := by
  cases e <;> simp [State.unsetLoc16, State.loc16, value16, unset16_eq, unsetMem16_eq]

theorem note8_eq (s : State) (q : Reg8) : s.note8 q = s.record (entries s [.half q]) := by simp [State.note8, unset8_eq]

theorem note16_eq (s : State) (r : Reg16) : s.note16 r = s.record (entries s [.word r]) := by simp [State.note16, unset16_eq]

theorem noteMem8_eq (s : State) (sg off : Word) : s.noteMem8 sg off = s.record (entries s [.byte sg off]) := by
  simp [State.noteMem8, unsetMem8_eq]

theorem noteMem16_eq (s : State) (sg off : Word) : s.noteMem16 sg off = s.record (entries s [.pair sg off]) := by
  simp [State.noteMem16, unsetMem16_eq]

theorem noteEa_eq (s : State) (m : Mem) : s.noteEa m = s.record (entries s (addrOf m)) := by simp [State.noteEa, unsetEa_eq]

theorem noteFar_eq (s : State) (m : Mem) : s.noteFar m = s.record (entries s (farReads s m)) := by
  simp [State.noteFar, noteEa_eq, noteMem16_eq, farReads]

/-! ## Operands -/

@[simp] theorem record_value8 (s : State) (k : List FaultRecord) (e : Rm8) : value8 (s.record k) e = value8 s e := by
  cases e <;> rfl

@[simp] theorem record_value16 (s : State) (k : List FaultRecord) (e : Rm16) : value16 (s.record k) e = value16 s e := by
  cases e <;> rfl

@[simp] theorem record_entries (s : State) (k : List FaultRecord) (l : List Read) : entries (s.record k) l = entries s l := by
  induction l with
  | nil => rfl
  | cons r l ih => simp [ih]

theorem fetch8_record (s : State) (e : Rm8) : s.fetch8 e = s.record (entries s (addr8 e ++ value8 s e)) := by
  simp only [State.fetch8, State.noteLoc8, State.resolve8, unsetAddr8_eq]
  cases e <;> simp [State.unsetLoc8, State.loc8, value8, unset8_eq, unsetMem8_eq]

theorem fetch16_record (s : State) (e : Rm16) : s.fetch16 e = s.record (entries s (addr16 e ++ value16 s e)) := by
  simp only [State.fetch16, State.noteLoc16, State.resolve16, unsetAddr16_eq]
  cases e <;> simp [State.unsetLoc16, State.loc16, value16, unset16_eq, unsetMem16_eq]

/-- The reads that resolve a source of width 8. -/
def srcAddr8 : Src8 → List Read
  | .rm e => addr8 e
  | .imm _ => []

/-- The reads that resolve a source of width 16. -/
def srcAddr16 : Src16 → List Read
  | .rm e => addr16 e
  | .imm _ => []

/-- The read of a source of width 8. -/
def srcValue8 (s : State) : Src8 → List Read
  | .rm e => value8 s e
  | .imm _ => []

/-- The read of a source of width 16. -/
def srcValue16 (s : State) : Src16 → List Read
  | .rm e => value16 s e
  | .imm _ => []

theorem fetchSrc8_record (s : State) (e : Rm8) (x : Src8) :
    s.fetchSrc8 e x = s.record (entries s (addr8 e ++ srcAddr8 x ++ srcValue8 s x)) := by
  cases x <;> simp [State.fetchSrc8, unsetAddr8_eq, State.unsetSrcAddr8, State.unsetSrc8, unsetLoc8_eq, srcAddr8, srcValue8]

theorem fetchSrc16_record (s : State) (e : Rm16) (x : Src16) :
    s.fetchSrc16 e x = s.record (entries s (addr16 e ++ srcAddr16 x ++ srcValue16 s x)) := by
  cases x <;>
    simp [State.fetchSrc16, unsetAddr16_eq, State.unsetSrcAddr16, State.unsetSrc16, unsetLoc16_eq, srcAddr16, srcValue16]

theorem fetchPair8_record (s : State) (e : Rm8) (x : Src8) :
    s.fetchPair8 e x = s.record (entries s (addr8 e ++ srcAddr8 x ++ value8 s e ++ srcValue8 s x)) := by
  cases x <;> simp [State.fetchPair8, unsetAddr8_eq, State.unsetSrcAddr8, State.unsetSrc8, unsetLoc8_eq, srcAddr8, srcValue8]

theorem fetchPair16_record (s : State) (e : Rm16) (x : Src16) :
    s.fetchPair16 e x = s.record (entries s (addr16 e ++ srcAddr16 x ++ value16 s e ++ srcValue16 s x)) := by
  cases x <;>
    simp [State.fetchPair16, unsetAddr16_eq, State.unsetSrcAddr16, State.unsetSrc16, unsetLoc16_eq, srcAddr16, srcValue16]

theorem fetchMul8_record (s : State) (e : Rm8) :
    s.fetchMul8 e = s.record (entries s (addr8 e ++ [.half .al] ++ value8 s e)) := by
  simp only [State.fetchMul8, State.noteLoc8, State.resolve8, unsetAddr8_eq, note8_eq]
  cases e <;> simp [State.unsetLoc8, State.loc8, value8, unset8_eq, unsetMem8_eq]

theorem fetchMul16_record (s : State) (e : Rm16) :
    s.fetchMul16 e = s.record (entries s (addr16 e ++ [.word .ax] ++ value16 s e)) := by
  simp only [State.fetchMul16, State.noteLoc16, State.resolve16, unsetAddr16_eq, note16_eq]
  cases e <;> simp [State.unsetLoc16, State.loc16, value16, unset16_eq, unsetMem16_eq]

theorem fetchDiv8_record (s : State) (e : Rm8) :
    s.fetchDiv8 e = s.record (entries s (addr8 e ++ [.word .ax] ++ value8 s e)) := by
  simp only [State.fetchDiv8, State.noteLoc8, State.resolve8, unsetAddr8_eq, note16_eq]
  cases e <;> simp [State.unsetLoc8, State.loc8, value8, unset8_eq, unsetMem8_eq]

theorem fetchDiv16_record (s : State) (e : Rm16) :
    s.fetchDiv16 e = s.record (entries s (addr16 e ++ [.word .dx, .word .ax] ++ value16 s e)) := by
  simp only [State.fetchDiv16, State.noteLoc16, State.resolve16, unsetAddr16_eq, note16_eq]
  cases e <;> simp [State.unsetLoc16, State.loc16, value16, unset16_eq, unsetMem16_eq]

@[simp] theorem record_sourceSeg (s : State) (k : List FaultRecord) : sourceSeg (s.record k) = sourceSeg s := rfl

theorem noteSrcElem8_record (s : State) :
    s.noteSrcElem8 = s.record (entries s [.word .si, .byte (sourceSeg s) (s.reg16 .si)]) := by
  simp [State.noteSrcElem8, State.srcSeg, segOr_ds, note16_eq, noteMem8_eq]

theorem noteSrcElem16_record (s : State) :
    s.noteSrcElem16 = s.record (entries s [.word .si, .pair (sourceSeg s) (s.reg16 .si)]) := by
  simp [State.noteSrcElem16, State.srcSeg, segOr_ds, note16_eq, noteMem16_eq]

theorem noteDstElem8_record (s : State) :
    s.noteDstElem8 = s.record (entries s [.word .di, .byte s.segs.es (s.reg16 .di)]) := by
  simp [State.noteDstElem8, note16_eq, noteMem8_eq]

theorem noteDstElem16_record (s : State) :
    s.noteDstElem16 = s.record (entries s [.word .di, .pair s.segs.es (s.reg16 .di)]) := by
  simp [State.noteDstElem16, note16_eq, noteMem16_eq]

theorem putDst8_faults (s : State) (v : Byte) : (s.putDst8 v).faults = s.faults ++ entries s [.word .di] := by
  simp [State.putDst8, note16_eq]

theorem putDst16_faults (s : State) (v : Word) : (s.putDst16 v).faults = s.faults ++ entries s [.word .di] := by
  simp [State.putDst16, note16_eq]

/-! ## Operations -/

theorem mov8_faults (s : State) (e : Rm8) (x : Src8) :
    (s.mov8 e x).faults = s.faults ++ entries s (addr8 e ++ srcAddr8 x ++ srcValue8 s x) := by
  simp only [State.mov8, write8_faults, fetchSrc8_record, record_faults]

theorem mov16_faults (s : State) (e : Rm16) (x : Src16) :
    (s.mov16 e x).faults = s.faults ++ entries s (addr16 e ++ srcAddr16 x ++ srcValue16 s x) := by
  simp only [State.mov16, write16_faults, fetchSrc16_record, record_faults]

theorem alu8_faults (s : State) (op : AluOp) (e : Rm8) (x : Src8) :
    (s.alu8 op e x).faults = s.faults ++ entries s (addr8 e ++ srcAddr8 x ++ value8 s e ++ srcValue8 s x) := by
  simp only [State.alu8, fetchPair8_record]
  split <;> simp only [write8_faults, setFlags_faults, record_faults]

theorem alu16_faults (s : State) (op : AluOp) (e : Rm16) (x : Src16) :
    (s.alu16 op e x).faults = s.faults ++ entries s (addr16 e ++ srcAddr16 x ++ value16 s e ++ srcValue16 s x) := by
  simp only [State.alu16, fetchPair16_record]
  split <;> simp only [write16_faults, setFlags_faults, record_faults]

theorem test8_faults (s : State) (e : Rm8) (x : Src8) :
    (s.test8 e x).faults = s.faults ++ entries s (addr8 e ++ srcAddr8 x ++ value8 s e ++ srcValue8 s x) := by
  simp only [State.test8, fetchPair8_record, setFlags_faults, record_faults]

theorem test16_faults (s : State) (e : Rm16) (x : Src16) :
    (s.test16 e x).faults = s.faults ++ entries s (addr16 e ++ srcAddr16 x ++ value16 s e ++ srcValue16 s x) := by
  simp only [State.test16, fetchPair16_record, setFlags_faults, record_faults]

theorem xchg8_faults (s : State) (e : Rm8) (g : Reg8) :
    (s.xchg8 e g).faults = s.faults ++ entries s (addr8 e ++ value8 s e ++ [.half g]) := by
  simp [State.xchg8, fetchPair8_record, srcAddr8, srcValue8, addr8, value8]

theorem xchg16_faults (s : State) (e : Rm16) (g : Reg16) :
    (s.xchg16 e g).faults = s.faults ++ entries s (addr16 e ++ value16 s e ++ [.word g]) := by
  simp [State.xchg16, fetchPair16_record, srcAddr16, srcValue16, addr16, value16]

theorem unary8_faults (s : State) (f : Byte → Byte) (g : Byte → Word → Word) (e : Rm8) :
    (s.unary8 f g e).faults = s.faults ++ entries s (addr8 e ++ value8 s e) := by
  simp only [State.unary8, write8_faults, setFlags_faults, fetch8_record, record_faults]

theorem unary16_faults (s : State) (f : Word → Word) (g : Word → Word → Word) (e : Rm16) :
    (s.unary16 f g e).faults = s.faults ++ entries s (addr16 e ++ value16 s e) := by
  simp only [State.unary16, write16_faults, setFlags_faults, fetch16_record, record_faults]

theorem shift8_faults (s : State) (op : ShiftOp) (e : Rm8) (b : Byte) :
    (s.shift8 op e b).faults = s.faults ++ entries s (addr8 e ++ value8 s e) := by
  simp only [State.shift8, fetch8_record]
  split <;> simp only [write8_faults, setFlags_faults, record_faults]

theorem shift16_faults (s : State) (op : ShiftOp) (e : Rm16) (b : Byte) :
    (s.shift16 op e b).faults = s.faults ++ entries s (addr16 e ++ value16 s e) := by
  simp only [State.shift16, fetch16_record]
  split <;> simp only [write16_faults, setFlags_faults, record_faults]

/-- `Push` reads SP (R206). -/
theorem push_faults (s : State) (v : Word) : (s.push v).faults = s.faults ++ entries s [.word .sp] := by
  simp [State.push, note16_eq]

/-- SP is set after a push, so that the next one records nothing; the other registers are as before. -/
@[simp] theorem push_entriesOf_word (s : State) (r : Reg16) (v : Word) :
    entriesOf (s.push v) (.word r) = if r = .sp then [] else entriesOf s (.word r) := by
  simp [State.push, State.note16]

/-- `Pop` reads SP and the word there (R207). -/
theorem drop_faults (s : State) : s.drop.faults = s.faults ++ entries s (poppedReads s [0#16]) := by
  simp [State.drop, note16_eq, noteMem16_eq, poppedReads]

/-- SP is set after a pop; the other registers are as before. -/
@[simp] theorem drop_entriesOf_word (s : State) (r : Reg16) :
    entriesOf s.drop (.word r) = if r = .sp then [] else entriesOf s (.word r) := by
  simp [State.drop, State.note16, State.noteMem16]

/-- A pop leaves what reads of memory record. -/
@[simp] theorem drop_entriesOf_pair (s : State) (sg off : Word) :
    entriesOf s.drop (.pair sg off) = entriesOf s (.pair sg off) :=
  entriesOf_pair_congr (by constructor <;> simp) sg off

/-- An interrupt entry: SP, and the words of the vector table in the memory after the pushes (R490). -/
theorem enter_faults (s : State) (n : Byte) (ret : Word) :
    (s.enter n ret).faults = s.faults ++ entryEntries s (s.enter n ret) n := by
  have h1 : ivtOffset n = BitVec.ofNat 16 (4 * n.toNat) := by
    apply BitVec.eq_of_toNat_eq
    have := n.isLt
    simp [ivtOffset, zextByte, Nat.shiftLeft_eq]
    omega
  have h2 : ivtOffset n + 2#16 = BitVec.ofNat 16 (4 * n.toNat + 2) := by
    rw [h1]
    apply BitVec.eq_of_toNat_eq
    simp
  generalize hw : ((((s.push s.flags).setFlag .if_ false).setFlag .tf false).push
    ((((s.push s.flags).setFlag .if_ false).setFlag .tf false).segs.cs)).push ret = w
  have he : s.enter n ret = (w.jumpVector n).setEntered := by rw [← hw]; rfl
  have hs : SameStores w (s.enter n ret) := by
    rw [he]; constructor <;> simp [State.jumpVector, noteMem16_eq]
  have hf : w.faults = s.faults ++ entries s [.word .sp] := by
    rw [← hw]; simp [push_faults, State.setFlag]
  rw [entryEntries]
  simp only [entries_cons, entries_nil, entriesOf_pair_congr hs]
  rw [he, ← h1, ← h2]
  simp [State.jumpVector, noteMem16_eq, hf]

/-- The display copies of ENTER, where SP is set: BP once, and each word in the memory after the copies before it (R409). -/
theorem copyDisplay_faults {u s : State} (n : Nat) (h : SameStores u s) (hs : entriesOf s (.word .sp) = []) :
    (s.copyDisplay n).faults = s.faults ++ entries s (if 1 ≤ n then [.word .bp] else [])
      ++ displayEntries u s.segs.ss (s.reg16 .bp) (s.reg16 .sp) n := by
  induction n generalizing u s with
  | zero => simp [State.copyDisplay, displayEntries]
  | succ n ih =>
    have hst : SameStores (u.writeMem16 s.segs.ss (s.reg16 .sp - 2#16) (u.mem16 s.segs.ss (s.reg16 .bp - 2#16)))
        ((((s.note16 .bp).setReg16 .bp (s.reg16 .bp - 2#16)).noteMem16 s.segs.ss (s.reg16 .bp - 2#16)).push
          (s.mem16 s.segs.ss (s.reg16 .bp - 2#16))) := by
      rw [← h.mem16]
      refine (h.writeMem16 _ _ _).trans (SameStores.trans ?_ (push_stores _ _))
      simp only [State.noteMem16, State.note16, record_segs, setReg16_segs, record_reg16, setReg16_reg16]
      rw [if_neg (by decide)]
      exact SameStores.writeMem16 (by constructor <;> simp) _ _ _
    have e : s.copyDisplay (n + 1) = ((((s.note16 .bp).setReg16 .bp (s.reg16 .bp - 2#16)).noteMem16 s.segs.ss
        (s.reg16 .bp - 2#16)).push (s.mem16 s.segs.ss (s.reg16 .bp - 2#16))).copyDisplay n := by
      simp [State.copyDisplay, State.note16]
    rw [e, ih hst (by simp)]
    simp only [displayEntries, push_faults, noteMem16_eq, note16_eq]
    cases n <;> simp [← entriesOf_pair_congr h, hs]

end Sys2Proof.Machine
end

