-- ==== Sys2Proof/Laws/Step.lean ====
section
/-! SUPPORT. Fetching, and the step around an instruction: what the decoder is given, and how a step goes on from it. -/

namespace Sys2Proof.Machine

theorem codeBytes_length (s : State) (off : Word) (n : Nat) : (s.codeBytes off n).length = n := by
  induction n generalizing off with
  | zero => rfl
  | succ n ih => simp [State.codeBytes, ih]

/-- The bytes of the code segment, in two parts. -/
theorem codeBytes_add (s : State) (off : Word) (n m : Nat) :
    s.codeBytes off (n + m) = s.codeBytes off n ++ s.codeBytes (off + BitVec.ofNat 16 n) m := by
  induction n generalizing off with
  | zero => simp [State.codeBytes]
  | succ n ih =>
    have e : off + 1#16 + BitVec.ofNat 16 n = off + BitVec.ofNat 16 (n + 1) := by
      rw [BitVec.add_assoc]
      congr 1
      apply BitVec.eq_of_toNat_eq
      simp
      omega
    rw [show n + 1 + m = (n + m) + 1 by omega]
    simp [State.codeBytes, ih, e]

/-- The bytes of the code segment depend on the memories, the mapper and CS alone. -/
theorem codeBytes_congr {s u : State} (h : SameStores s u) (hs : u.segs.cs = s.segs.cs) (off : Word) (n : Nat) :
    u.codeBytes off n = s.codeBytes off n := by
  induction n generalizing off with
  | zero => rfl
  | succ n ih => simp [State.codeBytes, ih, hs, h.mem8]

/-- Where the bytes at the code offset are those of an instruction that the decoder reads back, the fetch finds it. -/
theorem fetch_of_bytes {s : State} {i : Instr} (hd : ∀ rest, decode (encode i ++ rest) = .instr i rest) (hl : i.len ≤ maxLen)
    (hb : s.codeBytes s.codeOffset i.len = encode i) : s.fetch = .instr i i.len := by
  have h := codeBytes_add s s.codeOffset i.len (maxLen - i.len)
  rw [Nat.add_sub_cancel' hl, hb] at h
  unfold State.fetch
  rw [h, hd]
  simp [codeBytes_length]
  omega

/-- An execution step that can start goes to the instruction (R470). -/
theorem cpuStep_of_runs {s : State} (h : Runs s) : s.cpuStep = s.runInstr := by
  have hn : s.stepNoInterrupt = s.runInstr := by
    unfold State.stepNoInterrupt
    rw [h.running]
    rfl
  unfold State.cpuStep
  split
  · rename_i hc
    rcases h.quiet with hq | hq | hq
    · rw [hq] at hc; simp at hc
    · rw [hq] at hc; simp at hc
    · rw [hq]; exact hn
  · exact hn

/-- What a scheduler step does with the outcome of the CPU step (R620). -/
theorem step_of_cpuStep {s t : State} {c : Option Nat} (h : s.cpuStep = .next (t, c)) :
    step s = .next (t.advanceDevices (t.deviceCycles c)).endStep := by
  simp [step, State.schedStep, h]

/-- One instruction that is no prefix ends the reading of prefixes (R470). -/
theorem executeN_instr {n : Nat} {s u : State} {i : Instr} {len : Nat} (hf : s.fetch = .instr i len)
    (hx : exec i (s.noteCode len) = .next u) (hp : i.isPrefix = false) :
    executeN (n + 1) s = .next (u.traced s i, some (s.cycles i)) := by
  simp [executeN, hf, hx, hp]

/-- A prefix is read, and the reading goes on (R152). -/
theorem executeN_prefix {n : Nat} {s u : State} {i : Instr} {len : Nat} (hf : s.fetch = .instr i len)
    (hx : exec i (s.noteCode len) = .next u) (hp : i.isPrefix = true) : executeN (n + 1) s = executeN n u := by
  simp [executeN, hf, hx, hp]

/-- A decode gap ends the reading of prefixes (R186). -/
theorem executeN_gap {n : Nat} {s : State} {len : Nat} (hf : s.fetch = .gap len) :
    executeN (n + 1) s = .next ((s.noteCode len).gapStep len, some s.ext.gapCycles) := by
  simp [executeN, hf]

end Sys2Proof.Machine
end

