-- ==== Sys2Proof/Tests/Slice0.lean ====
section
/-! SUPPORT. Tests: ill-formed terms, decoded words, steps taken from the vectors of 95_test_vectors.md, and for every statement
with hypotheses a state and operands that meet them. -/

namespace Sys2Proof.Tests

set_option Elab.async false

open Sys2Proof.Machine

/-! ## Helpers -/

/-- The base state V0 of 95_test_vectors.md section 0, without code. -/
def small : State :=
  { State.resetWith { resetGpr := .zero, resetRam := .zero } OpenCfg.ex { len := 65536 } { size := 32768 } .normal [] with
    segs := ⟨0#16, 0#16, 0#16, 0#16⟩
    ip := 0x0100#16
    regs := ⟨0#16, 0#16, 0#16, 0#16, 0x2000#16, 0#16, 0#16, 0#16⟩ }

/-- V0 with code at CS:IP. -/
def v0 (bs : List Byte) : State := small.loadCode 0x0100#16 bs

/-- A byte of memory at a physical address. -/
def put8 (a : Nat) (v : Byte) (s : State) : State := s.busWrite8 (BitVec.ofNat 20 a) v

/-- A word in segment 0. -/
def put16 (off v : Word) (s : State) : State := s.writeMem16 0#16 off v

/-- The byte at a physical address. -/
def get8 (s : State) (a : Nat) : Byte := s.busRead8 (BitVec.ofNat 20 a)

/-- Whether an outcome is a next state. -/
def isNext {α : Type} : Host.Outcome α Fault Refusal → Bool
  | .next _ => true
  | .fault _ => false
  | .refused _ => false

/-- The state after one step, or the state itself where there is none. -/
def after (s : State) : State :=
  match step s with
  | .next t => t
  | .fault _ => s
  | .refused _ => s

theorem next_of_isNext {α : Type} {o : Host.Outcome α Fault Refusal} (h : isNext o = true) : ∃ t, o = .next t := by
  cases o with
  | next t => exact ⟨t, rfl⟩
  | fault r => simp [isNext] at h
  | refused r => simp [isNext] at h

/-- Whether each byte list decodes to its instruction, with nothing left. -/
def decodesAll (l : List (List Nat × Instr)) : Bool :=
  l.all fun p => decide (decode (p.1.map (BitVec.ofNat 8)) = .instr p.2 [])

/-! ## Ill-formed terms -/

/-- `[BP]` has no form without a displacement (R163). -/
theorem test_wf_refuses_bp_without_displacement : (Mem.based .bp .none).wf = false := by decide

theorem test_wf_refuses_byte_operand : (Rm8.mem (.based .bp .none)).wf = false := by decide

theorem test_wf_refuses_word_operand : (Rm16.mem (.based .bp .none)).wf = false := by decide

theorem test_wf_refuses_instruction : (Instr.addEbGb (.mem (.based .bp .none)) .al).wf = false := by decide

theorem test_wf_refuses_lea : (Instr.leaGvM .ax (.based .bp .none)).wf = false := by decide

/-- Byte 90 is NOP, not an exchange with AX (R218). -/
theorem test_wf_refuses_xchg_ax : (Instr.xchgR16Ax .ax).wf = false := by decide

theorem test_wf_accepts_bp_with_displacement : (Instr.addEbGb (.mem (.based .bp (.d8 0#8))) .al).wf = true := by decide

/-- Nothing to decode in no byte, and in an instruction cut short. -/
theorem test_decode_short : decode [] = .short ∧ decode [0xB8#8, 0x34#8] = .short := by decide

/-- Reserved forms are gaps, not their neighbours (R180). -/
theorem test_decode_gaps : decode [0x0F#8, 0x00#8] = .gap .opcode 1 ∧ decode [0xFE#8, 0x16#8, 0x00#8, 0x03#8] = .gap .group 4
    ∧ decode [0x8D#8, 0xC0#8] = .gap .registerForm 2 := by decide

/-! ## Decoding: one word per constructor, from the match bits of the opcode table and the operand tables R161-R164, R168 -/

theorem test_decode_words_1 : decodesAll
    [([0x00, 0x30], .addEbGb (.mem (.based .bxsi .none)) .dh), ([0x01, 0x1B], .addEvGv (.mem (.based .bpdi .none)) .bx),
     ([0x02, 0xC5], .addGbEb .al (.reg .ch)), ([0x03, 0x6E, 0x86], .addGvEv .bp (.mem (.based .bp (.d8 0x86#8)))),
     ([0x04, 0x85], .addAlIb 0x85#8), ([0x05, 0xC7, 0x92], .addAxIw 0x92C7#16),
     ([0x80, 0x82, 0x21, 0xF2, 0x87], .addEbIb (.mem (.based .bpsi (.d16 0xF221#16))) 0x87#8),
     ([0x81, 0x86, 0x21, 0xF6, 0x09, 0x99], .addEvIw (.mem (.based .bp (.d16 0xF621#16))) 0x9909#16)] = true := by decide +kernel

theorem test_decode_words_2 : decodesAll
    [([0x82, 0xC7, 0x89], .addEbIbAlias (.reg .bh) 0x89#8),
     ([0x83, 0x06, 0x34, 0x12, 0x8A], .addEvIbs (.mem (.direct 0x1234#16)) 0x8A#8),
     ([0x08, 0x00], .orEbGb (.mem (.based .bxsi .none)) .al), ([0x09, 0xEC], .orEvGv (.reg .sp) .bp),
     ([0x0A, 0x17], .orGbEb .dl (.mem (.based .bx .none))),
     ([0x0B, 0x7E, 0x86], .orGvEv .di (.mem (.based .bp (.d8 0x86#8)))), ([0x0C, 0x8F], .orAlIb 0x8F#8),
     ([0x0D, 0x11, 0xB2], .orAxIw 0xB211#16)] = true := by decide +kernel

theorem test_decode_words_3 : decodesAll
    [([0x80, 0x8A, 0x21, 0xF2, 0x91], .orEbIb (.mem (.based .bpsi (.d16 0xF221#16))) 0x91#8),
     ([0x81, 0xCE, 0x53, 0xB8], .orEvIw (.reg .si) 0xB853#16),
     ([0x82, 0x8C, 0x21, 0xF4, 0x93], .orEbIbAlias (.mem (.based .si (.d16 0xF421#16))) 0x93#8),
     ([0x83, 0x0E, 0x34, 0x12, 0x94], .orEvIbs (.mem (.direct 0x1234#16)) 0x94#8), ([0x10, 0xD3], .adcEbGb (.reg .bl) .dl),
     ([0x11, 0x3B], .adcEvGv (.mem (.based .bpdi .none)) .di), ([0x12, 0x27], .adcGbEb .ah (.mem (.based .bx .none))),
     ([0x13, 0xC8], .adcGvEv .cx (.reg .ax))] = true := by decide +kernel

theorem test_decode_words_4 : decodesAll
    [([0x14, 0x99], .adcAlIb 0x99#8), ([0x15, 0x5B, 0xD1], .adcAxIw 0xD15B#16),
     ([0x80, 0xD5, 0x9B], .adcEbIb (.reg .ch) 0x9B#8),
     ([0x81, 0x96, 0x21, 0xF6, 0x9D, 0xD7], .adcEvIw (.mem (.based .bp (.d16 0xF621#16))) 0xD79D#16),
     ([0x82, 0x94, 0x21, 0xF4, 0x9D], .adcEbIbAlias (.mem (.based .si (.d16 0xF421#16))) 0x9D#8),
     ([0x83, 0xD2, 0x9E], .adcEvIbs (.reg .dx) 0x9E#8), ([0x18, 0x20], .sbbEbGb (.mem (.based .bxsi .none)) .ah),
     ([0x19, 0x0B], .sbbEvGv (.mem (.based .bpdi .none)) .cx)] = true := by decide +kernel

theorem test_decode_words_5 : decodesAll
    [([0x1A, 0xF7], .sbbGbEb .dh (.reg .bh)), ([0x1B, 0x5E, 0x86], .sbbGvEv .bx (.mem (.based .bp (.d8 0x86#8)))),
     ([0x1C, 0xA3], .sbbAlIb 0xA3#8), ([0x1D, 0xA5, 0xF0], .sbbAxIw 0xF0A5#16),
     ([0x80, 0x9A, 0x21, 0xF2, 0xA5], .sbbEbIb (.mem (.based .bpsi (.d16 0xF221#16))) 0xA5#8),
     ([0x81, 0x9E, 0x21, 0xF6, 0xE7, 0xF6], .sbbEvIw (.mem (.based .bp (.d16 0xF621#16))) 0xF6E7#16),
     ([0x82, 0xD9, 0xA7], .sbbEbIbAlias (.reg .cl) 0xA7#8),
     ([0x83, 0x1E, 0x34, 0x12, 0xA8], .sbbEvIbs (.mem (.direct 0x1234#16)) 0xA8#8)] = true := by decide +kernel

theorem test_decode_words_6 : decodesAll
    [([0x20, 0x30], .andEbGb (.mem (.based .bxsi .none)) .dh), ([0x21, 0xDE], .andEvGv (.reg .si) .bx),
     ([0x22, 0x07], .andGbEb .al (.mem (.based .bx .none))),
     ([0x23, 0x6E, 0x86], .andGvEv .bp (.mem (.based .bp (.d8 0x86#8)))), ([0x24, 0xAD], .andAlIb 0xAD#8),
     ([0x25, 0xEF, 0x0F], .andAxIw 0x0FEF#16),
     ([0x80, 0xA2, 0x21, 0xF2, 0xAF], .andEbIb (.mem (.based .bpsi (.d16 0xF221#16))) 0xAF#8),
     ([0x81, 0xE0, 0x31, 0x16], .andEvIw (.reg .ax) 0x1631#16)] = true := by decide +kernel

theorem test_decode_words_7 : decodesAll
    [([0x82, 0xA4, 0x21, 0xF4, 0xB1], .andEbIbAlias (.mem (.based .si (.d16 0xF421#16))) 0xB1#8),
     ([0x83, 0x26, 0x34, 0x12, 0xB2], .andEvIbs (.mem (.direct 0x1234#16)) 0xB2#8),
     ([0x28, 0xC5], .subEbGb (.reg .ch) .al), ([0x29, 0x2B], .subEvGv (.mem (.based .bpdi .none)) .bp),
     ([0x2A, 0x17], .subGbEb .dl (.mem (.based .bx .none))), ([0x2B, 0xFA], .subGvEv .di (.reg .dx)),
     ([0x2C, 0xB7], .subAlIb 0xB7#8), ([0x2D, 0x39, 0x2F], .subAxIw 0x2F39#16)] = true := by decide +kernel

theorem test_decode_words_8 : decodesAll
    [([0x80, 0xEF, 0xB9], .subEbIb (.reg .bh) 0xB9#8),
     ([0x81, 0xAE, 0x21, 0xF6, 0x7B, 0x35], .subEvIw (.mem (.based .bp (.d16 0xF621#16))) 0x357B#16),
     ([0x82, 0xAC, 0x21, 0xF4, 0xBB], .subEbIbAlias (.mem (.based .si (.d16 0xF421#16))) 0xBB#8),
     ([0x83, 0xEC, 0xBC], .subEvIbs (.reg .sp) 0xBC#8), ([0x30, 0x10], .xorEbGb (.mem (.based .bxsi .none)) .dl),
     ([0x31, 0x3B], .xorEvGv (.mem (.based .bpdi .none)) .di), ([0x32, 0xE1], .xorGbEb .ah (.reg .cl)),
     ([0x33, 0x4E, 0x86], .xorGvEv .cx (.mem (.based .bp (.d8 0x86#8))))] = true := by decide +kernel

theorem test_decode_words_9 : decodesAll
    [([0x34, 0xC1], .xorAlIb 0xC1#8), ([0x35, 0x83, 0x4E], .xorAxIw 0x4E83#16),
     ([0x80, 0xB2, 0x21, 0xF2, 0xC3], .xorEbIb (.mem (.based .bpsi (.d16 0xF221#16))) 0xC3#8),
     ([0x81, 0xB6, 0x21, 0xF6, 0xC5, 0x54], .xorEvIw (.mem (.based .bp (.d16 0xF621#16))) 0x54C5#16),
     ([0x82, 0xF3, 0xC5], .xorEbIbAlias (.reg .bl) 0xC5#8),
     ([0x83, 0x36, 0x34, 0x12, 0xC6], .xorEvIbs (.mem (.direct 0x1234#16)) 0xC6#8),
     ([0x38, 0x20], .cmpEbGb (.mem (.based .bxsi .none)) .ah), ([0x39, 0xC8], .cmpEvGv (.reg .ax) .cx)] = true := by decide +kernel

theorem test_decode_words_10 : decodesAll
    [([0x3A, 0x37], .cmpGbEb .dh (.mem (.based .bx .none))),
     ([0x3B, 0x5E, 0x86], .cmpGvEv .bx (.mem (.based .bp (.d8 0x86#8)))), ([0x3C, 0xCB], .cmpAlIb 0xCB#8),
     ([0x3D, 0xCD, 0x6D], .cmpAxIw 0x6DCD#16),
     ([0x80, 0xBA, 0x21, 0xF2, 0xCD], .cmpEbIb (.mem (.based .bpsi (.d16 0xF221#16))) 0xCD#8),
     ([0x81, 0xFA, 0x0F, 0x74], .cmpEvIw (.reg .dx) 0x740F#16),
     ([0x82, 0xBC, 0x21, 0xF4, 0xCF], .cmpEbIbAlias (.mem (.based .si (.d16 0xF421#16))) 0xCF#8),
     ([0x83, 0x3E, 0x34, 0x12, 0xD0], .cmpEvIbs (.mem (.direct 0x1234#16)) 0xD0#8)] = true := by decide +kernel

theorem test_decode_words_11 : decodesAll
    [([0x45], .incR16 .bp), ([0x48], .decR16 .ax), ([0x53], .pushR16 .bx), ([0x5E], .popR16 .si),
     ([0x62, 0x51, 0x81], .boundGvMa .dx (.based .bxdi (.d8 0x81#8))), ([0x68, 0x17, 0x8D], .pushIw 0x8D17#16),
     ([0x69, 0xE1, 0x38, 0x90], .imulGvEvIw .sp (.reg .cx) 0x9038#16), ([0x6A, 0xD8], .pushIbs 0xD8#8)] = true := by decide +kernel

theorem test_decode_words_12 : decodesAll
    [([0x6B, 0xB4, 0x21, 0xF4, 0xD9], .imulGvEvIbs .si (.mem (.based .si (.d16 0xF421#16))) 0xD9#8),
     ([0x70, 0xDA], .joRel8 0xDA#8), ([0x71, 0xDB], .jnoRel8 0xDB#8), ([0x72, 0xDC], .jbRel8 0xDC#8),
     ([0x73, 0xDD], .jnbRel8 0xDD#8), ([0x74, 0xDE], .jzRel8 0xDE#8), ([0x75, 0xDF], .jnzRel8 0xDF#8),
     ([0x76, 0xE0], .jbeRel8 0xE0#8)] = true := by decide +kernel

theorem test_decode_words_13 : decodesAll
    [([0x77, 0xE1], .jaRel8 0xE1#8), ([0x78, 0xE2], .jsRel8 0xE2#8), ([0x79, 0xE3], .jnsRel8 0xE3#8),
     ([0x7A, 0xE4], .jpRel8 0xE4#8), ([0x7B, 0xE5], .jnpRel8 0xE5#8), ([0x7C, 0xE6], .jlRel8 0xE6#8),
     ([0x7D, 0xE7], .jgeRel8 0xE7#8), ([0x7E, 0xE8], .jleRel8 0xE8#8)] = true := by decide +kernel

theorem test_decode_words_14 : decodesAll
    [([0x7F, 0xE9], .jgRel8 0xE9#8), ([0x84, 0x5D, 0x85], .testEbGb (.mem (.based .di (.d8 0x85#8))) .bl),
     ([0x85, 0x82, 0x21, 0xF2], .testEvGv (.mem (.based .bpsi (.d16 0xF221#16))) .ax),
     ([0x86, 0xEC], .xchgEbGb (.reg .ah) .ch),
     ([0x87, 0x94, 0x21, 0xF4], .xchgEvGv (.mem (.based .si (.d16 0xF421#16))) .dx),
     ([0x88, 0x3E, 0x34, 0x12], .movEbGb (.mem (.direct 0x1234#16)) .bh), ([0x89, 0xE1], .movEvGv (.reg .cx) .sp),
     ([0x8A, 0x0B], .movGbEb .cl (.mem (.based .bpdi .none)))] = true := by decide +kernel

theorem test_decode_words_15 : decodesAll
    [([0x8B, 0x37], .movGvEv .si (.mem (.based .bx .none))), ([0x8C, 0xC6], .movEwEs (.reg .si)),
     ([0x8C, 0x49, 0x81], .movEwCs (.mem (.based .bxdi (.d8 0x81#8)))),
     ([0x8C, 0x55, 0x85], .movEwSs (.mem (.based .di (.d8 0x85#8)))), ([0x8C, 0xDB], .movEwDs (.reg .bx)),
     ([0x8D, 0xBE, 0x21, 0xF6], .leaGvM .di (.based .bp (.d16 0xF621#16))),
     ([0x8E, 0x84, 0x21, 0xF4], .movEsEw (.mem (.based .si (.d16 0xF421#16)))), ([0x8E, 0xD0], .movSsEw (.reg .ax))] = true := by decide +kernel

theorem test_decode_words_16 : decodesAll
    [([0x8E, 0x18], .movDsEw (.mem (.based .bxsi .none))), ([0x8F, 0x03], .popEv (.mem (.based .bpdi .none))),
     ([0x93], .xchgR16Ax .bx), ([0x9A, 0xFD, 0x03, 0xFD, 0x03], .callAp 0x03FD#16 0x03FD#16),
     ([0xA0, 0x1E, 0x07], .movAlOb 0x071E#16), ([0xA1, 0x3F, 0x0A], .movAxOw 0x0A3F#16),
     ([0xA2, 0x60, 0x0D], .movObAl 0x0D60#16), ([0xA3, 0x81, 0x10], .movOwAx 0x1081#16)] = true := by decide +kernel

theorem test_decode_words_17 : decodesAll
    [([0xA8, 0x01], .testAlIb 0x01#8), ([0xA9, 0xC3, 0x16], .testAxIw 0x16C3#16), ([0xB3, 0x03], .movR8Ib .bl 0x03#8),
     ([0xBE, 0x05, 0x1D], .movR16Iw .si 0x1D05#16), ([0xC0, 0x07, 0x05], .rolEbIb (.mem (.based .bx .none)) 0x05#8),
     ([0xC1, 0x46, 0x86, 0x06], .rolEvIb (.mem (.based .bp (.d8 0x86#8))) 0x06#8), ([0xD0, 0xC1], .rolEb1 (.reg .cl)),
     ([0xD1, 0x45, 0x85], .rolEv1 (.mem (.based .di (.d8 0x85#8))))] = true := by decide +kernel

theorem test_decode_words_18 : decodesAll
    [([0xD2, 0x82, 0x21, 0xF2], .rolEbCl (.mem (.based .bpsi (.d16 0xF221#16)))), ([0xD3, 0xC6], .rolEvCl (.reg .si)),
     ([0xC0, 0x8C, 0x21, 0xF4, 0x0B], .rorEbIb (.mem (.based .si (.d16 0xF421#16))) 0x0B#8),
     ([0xC1, 0x0E, 0x34, 0x12, 0x0C], .rorEvIb (.mem (.direct 0x1234#16)) 0x0C#8), ([0xD0, 0xCB], .rorEb1 (.reg .bl)),
     ([0xD1, 0x0B], .rorEv1 (.mem (.based .bpdi .none))), ([0xD2, 0x0F], .rorEbCl (.mem (.based .bx .none))),
     ([0xD3, 0xC8], .rorEvCl (.reg .ax))] = true := by decide +kernel

theorem test_decode_words_19 : decodesAll
    [([0xC0, 0x51, 0x81, 0x11], .rclEbIb (.mem (.based .bxdi (.d8 0x81#8))) 0x11#8),
     ([0xC1, 0x55, 0x85, 0x12], .rclEvIb (.mem (.based .di (.d8 0x85#8))) 0x12#8), ([0xD0, 0xD5], .rclEb1 (.reg .ch)),
     ([0xD1, 0x96, 0x21, 0xF6], .rclEv1 (.mem (.based .bp (.d16 0xF621#16)))),
     ([0xD2, 0x94, 0x21, 0xF4], .rclEbCl (.mem (.based .si (.d16 0xF421#16)))), ([0xD3, 0xD2], .rclEvCl (.reg .dx)),
     ([0xC0, 0x18, 0x17], .rcrEbIb (.mem (.based .bxsi .none)) 0x17#8),
     ([0xC1, 0x1B, 0x18], .rcrEvIb (.mem (.based .bpdi .none)) 0x18#8)] = true := by decide +kernel

theorem test_decode_words_20 : decodesAll
    [([0xD0, 0xDF], .rcrEb1 (.reg .bh)), ([0xD1, 0x5E, 0x86], .rcrEv1 (.mem (.based .bp (.d8 0x86#8)))),
     ([0xD2, 0x59, 0x81], .rcrEbCl (.mem (.based .bxdi (.d8 0x81#8)))), ([0xD3, 0xDC], .rcrEvCl (.reg .sp)),
     ([0xC0, 0xA2, 0x21, 0xF2, 0x1D], .shlEbIb (.mem (.based .bpsi (.d16 0xF221#16))) 0x1D#8),
     ([0xC1, 0xA6, 0x21, 0xF6, 0x1E], .shlEvIb (.mem (.based .bp (.d16 0xF621#16))) 0x1E#8),
     ([0xD0, 0xE1], .shlEb1 (.reg .cl)), ([0xD1, 0x26, 0x34, 0x12], .shlEv1 (.mem (.direct 0x1234#16)))] = true := by decide +kernel

theorem test_decode_words_21 : decodesAll
    [([0xD2, 0x20], .shlEbCl (.mem (.based .bxsi .none))), ([0xD3, 0xE6], .shlEvCl (.reg .si)),
     ([0xC0, 0x2F, 0x23], .shrEbIb (.mem (.based .bx .none)) 0x23#8),
     ([0xC1, 0x6E, 0x86, 0x24], .shrEvIb (.mem (.based .bp (.d8 0x86#8))) 0x24#8), ([0xD0, 0xEB], .shrEb1 (.reg .bl)),
     ([0xD1, 0x6D, 0x85], .shrEv1 (.mem (.based .di (.d8 0x85#8)))),
     ([0xD2, 0xAA, 0x21, 0xF2], .shrEbCl (.mem (.based .bpsi (.d16 0xF221#16)))), ([0xD3, 0xE8], .shrEvCl (.reg .ax))] = true := by decide +kernel

theorem test_decode_words_22 : decodesAll
    [([0xC0, 0xBC, 0x21, 0xF4, 0x29], .sarEbIb (.mem (.based .si (.d16 0xF421#16))) 0x29#8),
     ([0xC1, 0x3E, 0x34, 0x12, 0x2A], .sarEvIb (.mem (.direct 0x1234#16)) 0x2A#8), ([0xD0, 0xFD], .sarEb1 (.reg .ch)),
     ([0xD1, 0x3B], .sarEv1 (.mem (.based .bpdi .none))), ([0xD2, 0x3F], .sarEbCl (.mem (.based .bx .none))),
     ([0xD3, 0xFA], .sarEvCl (.reg .dx)), ([0xC2, 0x90, 0xA3], .retIw 0xA390#16),
     ([0xC4, 0x4D, 0x85], .lesGvMp .cx (.based .di (.d8 0x85#8)))] = true := by decide +kernel

theorem test_decode_words_23 : decodesAll
    [([0xC5, 0xB2, 0x21, 0xF2], .ldsGvMp .si (.based .bpsi (.d16 0xF221#16))),
     ([0xC6, 0x86, 0x21, 0xF6, 0x32], .movEbIb (.mem (.based .bp (.d16 0xF621#16))) 0x32#8),
     ([0xC7, 0x84, 0x21, 0xF4, 0x14, 0xB0], .movEvIw (.mem (.based .si (.d16 0xF421#16))) 0xB014#16),
     ([0xC8, 0x35, 0xB3, 0x34], .enterIwIb 0xB335#16 0x34#8), ([0xCA, 0x56, 0xB6], .retfIw 0xB656#16),
     ([0xCD, 0x36], .intIb 0x36#8), ([0xD4, 0x37], .aamIb 0x37#8), ([0xD5, 0x38], .aadIb 0x38#8)] = true := by decide +kernel

theorem test_decode_words_24 : decodesAll
    [([0xDD, 0x5E, 0x86], .esc 5#3 3#3 (.mem (.based .bp (.d8 0x86#8)))), ([0xE0, 0x3A], .loopnzRel8 0x3A#8),
     ([0xE1, 0x3B], .loopzRel8 0x3B#8), ([0xE2, 0x3C], .loopRel8 0x3C#8), ([0xE3, 0x3D], .jcxzRel8 0x3D#8),
     ([0xE4, 0x3E], .inAlIb 0x3E#8), ([0xE5, 0x3F], .inAxIb 0x3F#8), ([0xE6, 0x40], .outIbAl 0x40#8)] = true := by decide +kernel

theorem test_decode_words_25 : decodesAll
    [([0xE7, 0x41], .outIbAx 0x41#8), ([0xE8, 0x03, 0xDF], .callRel16 0xDF03#16), ([0xE9, 0x24, 0xE2], .jmpRel16 0xE224#16),
     ([0xEA, 0x45, 0xE5, 0x45, 0xE5], .jmpAp 0xE545#16 0xE545#16), ([0xEB, 0x45], .jmpRel8 0x45#8),
     ([0xF6, 0xC2, 0x46], .testEbIb (.reg .dl) 0x46#8),
     ([0xF7, 0x84, 0x21, 0xF4, 0xA8, 0xEE], .testEvIw (.mem (.based .si (.d16 0xF421#16))) 0xEEA8#16),
     ([0xF6, 0x16, 0x34, 0x12], .notEb (.mem (.direct 0x1234#16)))] = true := by decide +kernel

theorem test_decode_words_26 : decodesAll
    [([0xF7, 0xD7], .notEv (.reg .di)), ([0xF6, 0x1B], .negEb (.mem (.based .bpdi .none))),
     ([0xF7, 0x1F], .negEv (.mem (.based .bx .none))), ([0xF6, 0xE4], .mulEb (.reg .ah)),
     ([0xF7, 0x61, 0x81], .mulEv (.mem (.based .bxdi (.d8 0x81#8)))),
     ([0xF6, 0x6D, 0x85], .imulEb (.mem (.based .di (.d8 0x85#8)))), ([0xF7, 0xE9], .imulEv (.reg .cx)),
     ([0xF6, 0xB6, 0x21, 0xF6], .divEb (.mem (.based .bp (.d16 0xF621#16))))] = true := by decide +kernel

theorem test_decode_words_27 : decodesAll
    [([0xF7, 0xB4, 0x21, 0xF4], .divEv (.mem (.based .si (.d16 0xF421#16)))), ([0xF6, 0xFE], .idivEb (.reg .dh)),
     ([0xF7, 0x38], .idivEv (.mem (.based .bxsi .none))), ([0xFE, 0x03], .incEb (.mem (.based .bpdi .none))),
     ([0xFE, 0xCB], .decEb (.reg .bl)), ([0xFF, 0x46, 0x86], .incEv (.mem (.based .bp (.d8 0x86#8)))),
     ([0xFF, 0x49, 0x81], .decEv (.mem (.based .bxdi (.d8 0x81#8)))), ([0xFF, 0xD0], .callEv (.reg .ax))] = true := by decide +kernel

theorem test_decode_words_28 : decodesAll
    [([0xFF, 0x9A, 0x21, 0xF2], .callMp (.based .bpsi (.d16 0xF221#16))),
     ([0xFF, 0xA6, 0x21, 0xF6], .jmpEv (.mem (.based .bp (.d16 0xF621#16)))),
     ([0xFF, 0xAC, 0x21, 0xF4], .jmpMp (.based .si (.d16 0xF421#16))),
     ([0xFF, 0x36, 0x34, 0x12], .pushEv (.mem (.direct 0x1234#16))), ([0x06], .pushEs), ([0x0E], .pushCs),
     ([0x16], .pushSs), ([0x1E], .pushDs)] = true := by decide +kernel

theorem test_decode_words_29 : decodesAll
    [([0x07], .popEs), ([0x17], .popSs), ([0x1F], .popDs), ([0x26], .pfxEs), ([0x2E], .pfxCs), ([0x36], .pfxSs),
     ([0x3E], .pfxDs), ([0xF0], .pfxLock)] = true := by decide +kernel

theorem test_decode_words_30 : decodesAll
    [([0xF2], .pfxRepne), ([0xF3], .pfxRep), ([0x27], .daa), ([0x2F], .das), ([0x37], .aaa), ([0x3F], .aas),
     ([0x60], .pusha), ([0x61], .popa)] = true := by decide +kernel

theorem test_decode_words_31 : decodesAll
    [([0x6C], .insb), ([0x6D], .insw), ([0x6E], .outsb), ([0x6F], .outsw), ([0x90], .nop), ([0x98], .cbw), ([0x99], .cwd),
     ([0x9B], .wait)] = true := by decide +kernel

theorem test_decode_words_32 : decodesAll
    [([0x9C], .pushf), ([0x9D], .popf), ([0x9E], .sahf), ([0x9F], .lahf), ([0xA4], .movsb), ([0xA5], .movsw),
     ([0xA6], .cmpsb), ([0xA7], .cmpsw)] = true := by decide +kernel

theorem test_decode_words_33 : decodesAll
    [([0xAA], .stosb), ([0xAB], .stosw), ([0xAC], .lodsb), ([0xAD], .lodsw), ([0xAE], .scasb), ([0xAF], .scasw),
     ([0xC3], .ret), ([0xC9], .leave)] = true := by decide +kernel

theorem test_decode_words_34 : decodesAll
    [([0xCB], .retf), ([0xCC], .int3), ([0xCE], .into), ([0xCF], .iret), ([0xD7], .xlat), ([0xEC], .inAlDx),
     ([0xED], .inAxDx), ([0xEE], .outDxAl)] = true := by decide +kernel

theorem test_decode_words_35 : decodesAll
    [([0xEF], .outDxAx), ([0xF4], .hlt), ([0xF5], .cmc), ([0xF8], .clc), ([0xF9], .stc), ([0xFA], .cli), ([0xFB], .sti),
     ([0xFC], .cld)] = true := by decide +kernel

theorem test_decode_words_36 : decodesAll
    [([0xFD], .std)] = true := by decide +kernel

/-! ## Steps: vectors of 95_test_vectors.md, by their number there.
A flag that its rule leaves undefined is a free value, so the flags word of such a step is not evaluated here. -/

theorem test_T1_xchg_ax :
    let s := after (((v0 [0x93#8]).setReg16 .ax 0x1111#16).setReg16 .bx 0x2222#16)
    s.reg16 .ax = 0x2222#16 ∧ s.reg16 .bx = 0x1111#16 ∧ s.ip = 0x0101#16 := by
  decide +kernel

theorem test_T2_push_sp :
    let s := after (v0 [0x54#8])
    s.mem16 0#16 0x1FFE#16 = 0x1FFE#16 ∧ s.reg16 .sp = 0x1FFE#16 ∧ s.ip = 0x0101#16 := by
  decide +kernel

theorem test_T3_pusha :
    let s := after ((((((((v0 [0x60#8]).setReg16 .ax 0x0001#16).setReg16 .cx 0x0002#16).setReg16 .dx 0x0003#16).setReg16 .bx 0x0004#16).setReg16 .bp 0x0006#16).setReg16 .si 0x0007#16).setReg16 .di 0x0008#16)
    s.mem16 0#16 0x1FFE#16 = 0x0001#16 ∧ s.mem16 0#16 0x1FFC#16 = 0x0002#16 ∧ s.mem16 0#16 0x1FFA#16 = 0x0003#16
      ∧ s.mem16 0#16 0x1FF8#16 = 0x0004#16 ∧ s.mem16 0#16 0x1FF6#16 = 0x2000#16 ∧ s.mem16 0#16 0x1FF4#16 = 0x0006#16 := by
  decide +kernel

theorem test_T4_popa :
    let s := after (put16 0x1FFE#16 0x0001#16 (put16 0x1FFC#16 0x0002#16 (put16 0x1FFA#16 0x0003#16 (put16 0x1FF8#16 0x0004#16 (put16 0x1FF6#16 0x5555#16 (put16 0x1FF4#16 0x0006#16 (put16 0x1FF2#16 0x0007#16 (put16 0x1FF0#16 0x0008#16 ((v0 [0x61#8]).setReg16 .sp 0x1FF0#16)))))))))
    s.reg16 .di = 0x0008#16 ∧ s.reg16 .si = 0x0007#16 ∧ s.reg16 .bp = 0x0006#16 ∧ s.reg16 .bx = 0x0004#16
      ∧ s.reg16 .dx = 0x0003#16 ∧ s.reg16 .cx = 0x0002#16 := by
  decide +kernel

theorem test_T5_mov_ax :
    let s := after (put8 0x0000 0x12#8 (put8 0xFFFF 0x34#8 (v0 [0xA1#8, 0xFF#8, 0xFF#8])))
    s.reg16 .ax = 0x1234#16 := by
  decide +kernel

theorem test_T6_les_ax :
    let s := after (put16 0x0202#16 0x5678#16 (put16 0x0200#16 0x1234#16 (v0 [0xC4#8, 0x06#8, 0x00#8, 0x02#8])))
    s.reg16 .ax = 0x1234#16 ∧ s.segs.es = 0x5678#16 ∧ s.ip = 0x0104#16 := by
  decide +kernel

theorem test_T7_xlat :
    let s := after (((put8 0x0305 0x99#8 (v0 [0xD7#8])).setReg16 .bx 0x0300#16).setReg8 .al 0x05#8)
    s.reg8 .al = 0x99#8 := by
  decide +kernel

theorem test_T8_sahf :
    let s := after ((v0 [0x9E#8]).setReg8 .ah 0xFF#8)
    s.flags = 0xF0D7#16 := by
  decide +kernel

theorem test_T9_lahf :
    let s := after ((v0 [0x9F#8]).setFlags 0xF0D7#16)
    s.reg8 .ah = 0xD7#8 := by
  decide +kernel

theorem test_T10_popf :
    let s := after ((put16 0x1FFE#16 0xFFFF#16 (v0 [0x9D#8])).setReg16 .sp 0x1FFE#16)
    s.flags = 0xFFD7#16 ∧ s.flag .tf = true ∧ s.reg16 .sp = 0x2000#16 := by
  decide +kernel

theorem test_T12_push_0xfffe :
    let s := after (v0 [0x6A#8, 0xFE#8])
    s.mem16 0#16 0x1FFE#16 = 0xFFFE#16 ∧ s.reg16 .sp = 0x1FFE#16 ∧ s.ip = 0x0102#16 := by
  decide +kernel

theorem test_T13_mov_es :
    let s := after ((v0 [0x8E#8, 0xC0#8]).setReg16 .ax 0x1234#16)
    s.segs.es = 0x1234#16 := by
  decide +kernel

theorem test_T14_lea_ax :
    let s := after (((v0 [0x8D#8, 0x40#8, 0xFF#8]).setReg16 .bx 0x0080#16).setReg16 .si 0x0080#16)
    s.reg16 .ax = 0x00FF#16 := by
  decide +kernel

theorem test_T15_lea_ax :
    let s := after (((v0 [0x8D#8, 0x00#8]).setReg16 .bx 0xFFFF#16).setReg16 .si 0x0001#16)
    s.reg16 .ax = 0x0000#16 := by
  decide +kernel

theorem test_T16_pop_word_0x0300 :
    let s := after ((put16 0x1FFE#16 0xBEEF#16 (v0 [0x8F#8, 0x06#8, 0x00#8, 0x03#8])).setReg16 .sp 0x1FFE#16)
    s.mem16 0#16 0x0300#16 = 0xBEEF#16 ∧ s.reg16 .sp = 0x2000#16 := by
  decide +kernel

theorem test_T17_mov_cs :
    let s := after (v0 [0x8E#8, 0xC8#8])
    s.ip = 0x0102#16 ∧ s.diag.length = 1 := by
  decide +kernel

theorem test_A1_add_al :
    let s := after ((v0 [0x04#8, 0x01#8]).setReg8 .al 0x7F#8)
    s.reg8 .al = 0x80#8 ∧ s.flag .of = true ∧ s.flag .sf = true ∧ s.flag .zf = false ∧ s.flag .af = true
      ∧ s.flag .pf = false := by
  decide +kernel

theorem test_A2_add_ax :
    let s := after ((v0 [0x05#8, 0x01#8, 0x00#8]).setReg16 .ax 0xFFFF#16)
    s.reg16 .ax = 0x0000#16 ∧ s.flag .cf = true ∧ s.flag .zf = true ∧ s.flag .af = true ∧ s.flag .pf = true
      ∧ s.flag .of = false := by
  decide +kernel

theorem test_A3_sub_al :
    let s := after ((v0 [0x2C#8, 0x01#8]).setReg8 .al 0x00#8)
    s.reg8 .al = 0xFF#8 ∧ s.flag .cf = true ∧ s.flag .af = true ∧ s.flag .sf = true ∧ s.flag .of = false
      ∧ s.flag .pf = true := by
  decide +kernel

theorem test_A4_sbb_al :
    let s := after (((v0 [0x1C#8, 0x00#8]).setReg8 .al 0x00#8).setFlag .cf true)
    s.reg8 .al = 0xFF#8 ∧ s.flag .cf = true ∧ s.flag .zf = false := by
  decide +kernel

theorem test_A5_adc_al :
    let s := after (((v0 [0x14#8, 0xFF#8]).setReg8 .al 0x00#8).setFlag .cf true)
    s.reg8 .al = 0x00#8 ∧ s.flag .cf = true ∧ s.flag .zf = true ∧ s.flag .af = true := by
  decide +kernel

theorem test_A6_cmp_al :
    let s := after ((v0 [0x3C#8, 0x80#8]).setReg8 .al 0x7F#8)
    s.flag .of = true ∧ s.flag .cf = true ∧ s.flag .sf = true ∧ s.flag .zf = false := by
  decide +kernel

theorem test_A7_inc_al :
    let s := after (((v0 [0xFE#8, 0xC0#8]).setReg8 .al 0xFF#8).setFlag .cf true)
    s.reg8 .al = 0x00#8 ∧ s.flag .zf = true ∧ s.flag .af = true ∧ s.flag .of = false ∧ s.flag .cf = true := by
  decide +kernel

theorem test_A8_dec_ax :
    let s := after ((v0 [0x48#8]).setReg16 .ax 0x8000#16)
    s.reg16 .ax = 0x7FFF#16 ∧ s.flag .of = true ∧ s.flag .sf = false ∧ s.flag .af = true := by
  decide +kernel

theorem test_A9_neg_al :
    let s := after ((v0 [0xF6#8, 0xD8#8]).setReg8 .al 0x80#8)
    s.reg8 .al = 0x80#8 ∧ s.flag .of = true ∧ s.flag .cf = true ∧ s.flag .sf = true := by
  decide +kernel

theorem test_A11_mul_ax :
    let s := after ((v0 [0xF7#8, 0xE0#8]).setReg16 .ax 0xFFFF#16)
    s.reg16 .dx = 0xFFFE#16 ∧ s.reg16 .ax = 0x0001#16 := by
  decide +kernel

theorem test_A13_mul_bl :
    let s := after (((v0 [0xF6#8, 0xE3#8]).setReg8 .al 0x10#8).setReg8 .bl 0x10#8)
    s.reg16 .ax = 0x0100#16 := by
  decide +kernel

theorem test_A14_imul_bl :
    let s := after (((v0 [0xF6#8, 0xEB#8]).setReg8 .al 0xFF#8).setReg8 .bl 0x02#8)
    s.reg16 .ax = 0xFFFE#16 := by
  decide +kernel

theorem test_A16_imul_ax :
    let s := after ((v0 [0x6B#8, 0xC3#8, 0xFE#8]).setReg16 .bx 0x4001#16)
    s.reg16 .ax = 0x7FFE#16 := by
  decide +kernel

theorem test_A17_imul_ax :
    let s := after ((v0 [0x69#8, 0xC3#8, 0x00#8, 0x01#8]).setReg16 .bx 0x1234#16)
    s.reg16 .ax = 0x3400#16 ∧ s.ip = 0x0104#16 := by
  decide +kernel

theorem test_A18_div_bx :
    let s := after ((((v0 [0xF7#8, 0xF3#8]).setReg16 .dx 0x0001#16).setReg16 .ax 0x0000#16).setReg16 .bx 0x0002#16)
    s.reg16 .ax = 0x8000#16 ∧ s.reg16 .dx = 0x0000#16 := by
  decide +kernel

theorem test_A19_div_bx :
    let s := after ((((v0 [0xF7#8, 0xF3#8]).setReg16 .dx 0x0002#16).setReg16 .ax 0x0000#16).setReg16 .bx 0x0002#16)
    s.segs.cs = 0x0000#16 ∧ s.ip = 0x0000#16 ∧ s.mem16 0#16 0x1FFE#16 = 0xF002#16 ∧ s.mem16 0#16 0x1FFC#16 = 0x0000#16
      ∧ s.mem16 0#16 0x1FFA#16 = 0x0102#16 ∧ s.reg16 .sp = 0x1FFA#16 := by
  decide +kernel

theorem test_A20_div_bl :
    let s := after (((put16 0x0002#16 0x1000#16 (put16 0x0000#16 0x0040#16 (v0 [0xF6#8, 0xF3#8]))).setReg16 .ax 0x1234#16).setReg8 .bl 0x00#8)
    s.segs.cs = 0x1000#16 ∧ s.ip = 0x0040#16 ∧ s.mem16 0#16 0x1FFA#16 = 0x0102#16 ∧ s.reg16 .ax = 0x1234#16 := by
  decide +kernel

theorem test_A21_idiv_bl :
    let s := after (((v0 [0xF6#8, 0xFB#8]).setReg16 .ax 0xFF80#16).setReg8 .bl 0x01#8)
    s.reg8 .al = 0x80#8 ∧ s.reg8 .ah = 0x00#8 ∧ s.reg16 .sp = 0x2000#16 := by
  decide +kernel

theorem test_A22_idiv_bl :
    let s := after (((v0 [0xF6#8, 0xFB#8]).setReg16 .ax 0x0080#16).setReg8 .bl 0x01#8)
    s.reg16 .sp = 0x1FFA#16 := by
  decide +kernel

theorem test_A23_idiv_bl :
    let s := after (((v0 [0xF6#8, 0xFB#8]).setReg16 .ax 0xFFF9#16).setReg8 .bl 0x02#8)
    s.reg8 .al = 0xFD#8 ∧ s.reg8 .ah = 0xFF#8 := by
  decide +kernel

theorem test_A24_idiv_bx :
    let s := after ((((v0 [0xF7#8, 0xFB#8]).setReg16 .dx 0x0000#16).setReg16 .ax 0x0007#16).setReg16 .bx 0xFFFE#16)
    s.reg16 .ax = 0xFFFD#16 ∧ s.reg16 .dx = 0x0001#16 := by
  decide +kernel

theorem test_A25_daa :
    let s := after ((v0 [0x27#8]).setReg8 .al 0x9A#8)
    s.reg8 .al = 0x00#8 := by
  decide +kernel

theorem test_A27_das :
    let s := after (((v0 [0x2F#8]).setReg8 .al 0x00#8).setFlag .af true)
    s.reg8 .al = 0xFA#8 := by
  decide +kernel

theorem test_A28_das :
    let s := after ((v0 [0x2F#8]).setReg8 .al 0xFF#8)
    s.reg8 .al = 0x99#8 := by
  decide +kernel

theorem test_A30_aaa :
    let s := after ((v0 [0x37#8]).setReg16 .ax 0x00FA#16)
    s.reg16 .ax = 0x0100#16 := by
  decide +kernel

theorem test_A32_aas :
    let s := after (((v0 [0x3F#8]).setReg16 .ax 0x0500#16).setFlag .af true)
    s.reg16 .ax = 0x040A#16 := by
  decide +kernel

theorem test_A33_aam :
    let s := after ((v0 [0xD4#8, 0x0A#8]).setReg8 .al 0x3F#8)
    s.reg16 .ax = 0x0603#16 := by
  decide +kernel

theorem test_A35_aam_0 :
    let s := after ((v0 [0xD4#8, 0x00#8]).setReg8 .al 0x3F#8)
    s.mem16 0#16 0x1FFA#16 = 0x0102#16 ∧ s.reg16 .sp = 0x1FFA#16 := by
  decide +kernel

theorem test_A36_aad :
    let s := after ((v0 [0xD5#8, 0x0A#8]).setReg16 .ax 0x0609#16)
    s.reg16 .ax = 0x0045#16 := by
  decide +kernel

theorem test_A38_cbw :
    let s := after ((v0 [0x98#8]).setReg16 .ax 0x1280#16)
    s.reg16 .ax = 0xFF80#16 := by
  decide +kernel

theorem test_A39_cwd :
    let s := after ((v0 [0x99#8]).setReg16 .ax 0x8000#16)
    s.reg16 .dx = 0xFFFF#16 := by
  decide +kernel

theorem test_A41_add_ax :
    let s := after ((v0 [0x83#8, 0xC0#8, 0xFF#8]).setReg16 .ax 0x0001#16)
    s.reg16 .ax = 0x0000#16 ∧ s.flag .cf = true ∧ s.flag .zf = true := by
  decide +kernel

theorem test_L1_and_al :
    let s := after ((((v0 [0x24#8, 0x0F#8]).setReg8 .al 0xF5#8).setFlag .cf true).setFlag .of true)
    s.reg8 .al = 0x05#8 := by
  decide +kernel

theorem test_L3_xor_ax :
    let s := after ((v0 [0x31#8, 0xC0#8]).setReg16 .ax 0x1234#16)
    s.reg16 .ax = 0x0000#16 := by
  decide +kernel

theorem test_L4_not_al :
    let s := after (((v0 [0xF6#8, 0xD0#8]).setReg8 .al 0xF0#8).setFlags 0xF0D7#16)
    s.reg8 .al = 0x0F#8 ∧ s.flags = 0xF0D7#16 := by
  decide +kernel

theorem test_L5_or_al :
    let s := after ((v0 [0x0C#8, 0x80#8]).setReg8 .al 0x01#8)
    s.reg8 .al = 0x81#8 := by
  decide +kernel

theorem test_L8_shl_al :
    let s := after (((v0 [0xD2#8, 0xE0#8]).setReg8 .al 0x01#8).setReg8 .cl 0x08#8)
    s.reg8 .al = 0x00#8 := by
  decide +kernel

theorem test_L12_shr_al :
    let s := after ((v0 [0xD0#8, 0xE8#8]).setReg8 .al 0x81#8)
    s.reg8 .al = 0x40#8 := by
  decide +kernel

theorem test_L13_sar_al :
    let s := after (((v0 [0xD2#8, 0xF8#8]).setReg8 .al 0x80#8).setReg8 .cl 0x09#8)
    s.reg8 .al = 0xFF#8 := by
  decide +kernel

theorem test_L15_rcl_al :
    let s := after ((((v0 [0xD2#8, 0xD0#8]).setReg8 .al 0x55#8).setReg8 .cl 0x09#8).setFlag .cf true)
    s.reg8 .al = 0x55#8 := by
  decide +kernel

theorem test_L18_rol_al :
    let s := after (((v0 [0xD2#8, 0xC0#8]).setReg8 .al 0x81#8).setReg8 .cl 0x08#8)
    s.reg8 .al = 0x81#8 := by
  decide +kernel

theorem test_L19_ror_al :
    let s := after ((v0 [0xD0#8, 0xC8#8]).setReg8 .al 0x01#8)
    s.reg8 .al = 0x80#8 ∧ s.flag .cf = true ∧ s.flag .of = true := by
  decide +kernel

theorem test_L20_rcr_al :
    let s := after (((v0 [0xD0#8, 0xD8#8]).setReg8 .al 0x01#8).setFlag .cf false)
    s.reg8 .al = 0x00#8 ∧ s.flag .cf = true ∧ s.flag .of = false := by
  decide +kernel

theorem test_L21_shl_al :
    let s := after ((v0 [0xC0#8, 0xE0#8, 0x04#8]).setReg8 .al 0x0F#8)
    s.reg8 .al = 0xF0#8 ∧ s.ip = 0x0103#16 := by
  decide +kernel

theorem test_L22_shr_ax :
    let s := after (((v0 [0xD3#8, 0xE8#8]).setReg16 .ax 0x8000#16).setReg8 .cl 0x0F#8)
    s.reg16 .ax = 0x0001#16 := by
  decide +kernel

theorem test_L23_shl_word_0x0300 :
    let s := after (put16 0x0300#16 0x1234#16 (v0 [0xD1#8, 0x26#8, 0x00#8, 0x03#8]))
    s.mem16 0#16 0x0300#16 = 0x2468#16 ∧ s.ip = 0x0104#16 := by
  decide +kernel

theorem test_S1_rep_movsb :
    let s := after ((((put8 0x0300 0xAA#8 (v0 [0xF3#8, 0xA4#8])).setReg16 .cx 0x0000#16).setReg16 .si 0x0300#16).setReg16 .di 0x0400#16)
    get8 s 0x0400 = 0x00#8 ∧ s.reg16 .cx = 0x0000#16 ∧ s.reg16 .si = 0x0300#16 ∧ s.reg16 .di = 0x0400#16
      ∧ s.ip = 0x0102#16 := by
  decide +kernel

theorem test_S2_rep_stosb :
    let s := after ((((v0 [0xF3#8, 0xAA#8]).setReg16 .cx 0x0003#16).setReg16 .di 0x0400#16).setReg8 .al 0x77#8)
    get8 s 0x0400 = 0x77#8 ∧ s.reg16 .di = 0x0401#16 ∧ s.reg16 .cx = 0x0002#16 ∧ s.ip = 0x0100#16 := by
  decide +kernel

theorem test_S6_lodsw :
    let s := after (((put16 0x0302#16 0xBEEF#16 (v0 [0xAD#8])).setReg16 .si 0x0302#16).setFlag .df true)
    s.reg16 .ax = 0xBEEF#16 ∧ s.reg16 .si = 0x0300#16 := by
  decide +kernel

theorem test_S7_es_lodsb :
    let s := after (((put8 0x0210 0x5A#8 (v0 [0x26#8, 0xAC#8])).setSReg .es 0x0020#16).setReg16 .si 0x0010#16)
    s.reg8 .al = 0x5A#8 ∧ s.reg16 .si = 0x0011#16 ∧ s.ip = 0x0102#16 := by
  decide +kernel

theorem test_S8_cs_stosb :
    let s := after ((((v0 [0x2E#8, 0xAA#8]).setSReg .es 0x0020#16).setReg16 .di 0x0010#16).setReg8 .al 0x66#8)
    get8 s 0x0210 = 0x66#8 ∧ s.reg16 .di = 0x0011#16 := by
  decide +kernel

theorem test_S9_movsw :
    let s := after (((put8 0x0000 0x34#8 (put8 0xFFFF 0x12#8 (v0 [0xA5#8]))).setReg16 .si 0xFFFF#16).setReg16 .di 0x0400#16)
    s.mem16 0#16 0x0400#16 = 0x3412#16 ∧ s.reg16 .si = 0x0001#16 ∧ s.reg16 .di = 0x0402#16 := by
  decide +kernel

theorem test_S10_repe_cmpsb :
    let s := after (((v0 [0xF3#8, 0xA6#8]).setReg16 .cx 0x0000#16).setFlags 0xF0D7#16)
    s.ip = 0x0102#16 ∧ s.flags = 0xF0D7#16 := by
  decide +kernel

theorem test_S11_outsb :
    let s := after (((put8 0x0300 0x05#8 (v0 [0x6E#8])).setReg16 .dx 0x00B2#16).setReg16 .si 0x0300#16)
    s.reg16 .si = 0x0301#16 ∧ s.ip = 0x0101#16 ∧ s.ic.enable = 0x05#8 := by
  decide +kernel

theorem test_CT2_jmp_near_3 :
    let s := after (v0 [0xE9#8, 0xFD#8, 0xFF#8])
    s.ip = 0x0100#16 := by
  decide +kernel

theorem test_CT4_jz_16 :
    let s := after ((v0 [0x74#8, 0x10#8]).setFlag .zf true)
    s.ip = 0x0112#16 := by
  decide +kernel

theorem test_CT5_jl_16 :
    let s := after (((v0 [0x7C#8, 0x10#8]).setFlag .sf true).setFlag .of false)
    s.ip = 0x0112#16 := by
  decide +kernel

theorem test_CT8_loop :
    let s := after ((v0 [0xE2#8, 0x10#8]).setReg16 .cx 0x0001#16)
    s.reg16 .cx = 0x0000#16 ∧ s.ip = 0x0102#16 := by
  decide +kernel

theorem test_CT9_loop :
    let s := after ((v0 [0xE2#8, 0x10#8]).setReg16 .cx 0x0000#16)
    s.reg16 .cx = 0xFFFF#16 ∧ s.ip = 0x0112#16 := by
  decide +kernel

theorem test_CT10_jcxz :
    let s := after ((v0 [0xE3#8, 0x10#8]).setReg16 .cx 0x0000#16)
    s.reg16 .cx = 0x0000#16 ∧ s.ip = 0x0112#16 := by
  decide +kernel

theorem test_CT11_loope :
    let s := after (((v0 [0xE1#8, 0x10#8]).setReg16 .cx 0x0005#16).setFlag .zf false)
    s.reg16 .cx = 0x0004#16 ∧ s.ip = 0x0102#16 := by
  decide +kernel

theorem test_CT12_loopne :
    let s := after (((v0 [0xE0#8, 0x10#8]).setReg16 .cx 0x0005#16).setFlag .zf false)
    s.reg16 .cx = 0x0004#16 ∧ s.ip = 0x0112#16 := by
  decide +kernel

theorem test_CT13_call_near_0 :
    let s := after (v0 [0xE8#8, 0x00#8, 0x00#8])
    s.mem16 0#16 0x1FFE#16 = 0x0103#16 ∧ s.ip = 0x0103#16 ∧ s.reg16 .sp = 0x1FFE#16 := by
  decide +kernel

theorem test_CT14_ret_4 :
    let s := after ((put16 0x1FFE#16 0x0500#16 (v0 [0xC2#8, 0x04#8, 0x00#8])).setReg16 .sp 0x1FFE#16)
    s.ip = 0x0500#16 ∧ s.reg16 .sp = 0x2004#16 := by
  decide +kernel

theorem test_CT15_call_far_1000_0500 :
    let s := after (v0 [0x9A#8, 0x00#8, 0x05#8, 0x00#8, 0x10#8])
    s.mem16 0#16 0x1FFE#16 = 0x0000#16 ∧ s.mem16 0#16 0x1FFC#16 = 0x0105#16 ∧ s.segs.cs = 0x1000#16 ∧ s.ip = 0x0500#16
      ∧ s.reg16 .sp = 0x1FFC#16 := by
  decide +kernel

theorem test_CT16_retf :
    let s := after ((put16 0x1FFE#16 0x1000#16 (put16 0x1FFC#16 0x0500#16 (v0 [0xCB#8]))).setReg16 .sp 0x1FFC#16)
    s.segs.cs = 0x1000#16 ∧ s.ip = 0x0500#16 ∧ s.reg16 .sp = 0x2000#16 := by
  decide +kernel

theorem test_CT17_enter_4 :
    let s := after ((v0 [0xC8#8, 0x04#8, 0x00#8, 0x00#8]).setReg16 .bp 0x1234#16)
    s.mem16 0#16 0x1FFE#16 = 0x1234#16 ∧ s.reg16 .bp = 0x1FFE#16 ∧ s.reg16 .sp = 0x1FFA#16 ∧ s.ip = 0x0104#16 := by
  decide +kernel

theorem test_CT19_enter_0 :
    let s := after ((put16 0x2FFE#16 0xAAAA#16 (v0 [0xC8#8, 0x00#8, 0x00#8, 0x02#8])).setReg16 .bp 0x3000#16)
    s.mem16 0#16 0x1FFE#16 = 0x3000#16 ∧ s.mem16 0#16 0x1FFC#16 = 0xAAAA#16 ∧ s.mem16 0#16 0x1FFA#16 = 0x1FFE#16
      ∧ s.reg16 .bp = 0x1FFE#16 ∧ s.reg16 .sp = 0x1FFA#16 := by
  decide +kernel

theorem test_CT20_leave :
    let s := after (((put16 0x1FFE#16 0x1234#16 (v0 [0xC9#8])).setReg16 .bp 0x1FFE#16).setReg16 .sp 0x1F00#16)
    s.reg16 .sp = 0x2000#16 ∧ s.reg16 .bp = 0x1234#16 := by
  decide +kernel

theorem test_CT22_bound_ax :
    let s := after (put16 0x0302#16 0x0004#16 (put16 0x0300#16 0x0000#16 ((put16 0x0016#16 0x1000#16 (put16 0x0014#16 0x0040#16 (v0 [0x62#8, 0x06#8, 0x00#8, 0x03#8]))).setReg16 .ax 0x0005#16)))
    s.segs.cs = 0x1000#16 ∧ s.ip = 0x0040#16 ∧ s.mem16 0#16 0x1FFE#16 = 0xF002#16 ∧ s.mem16 0#16 0x1FFC#16 = 0x0000#16
      ∧ s.mem16 0#16 0x1FFA#16 = 0x0100#16 ∧ s.reg16 .sp = 0x1FFA#16 := by
  decide +kernel

theorem test_CT23_bound_ax :
    let s := after ((put16 0x0302#16 0x0004#16 (put16 0x0300#16 0xFFFE#16 (v0 [0x62#8, 0x06#8, 0x00#8, 0x03#8]))).setReg16 .ax 0xFFFF#16)
    s.ip = 0x0104#16 := by
  decide +kernel

theorem test_CT24_int_0x21 :
    let s := after ((put16 0x0086#16 0x1000#16 (put16 0x0084#16 0x0040#16 (v0 [0xCD#8, 0x21#8]))).setFlags 0xF302#16)
    s.segs.cs = 0x1000#16 ∧ s.ip = 0x0040#16 ∧ s.mem16 0#16 0x1FFE#16 = 0xF302#16 ∧ s.mem16 0#16 0x1FFC#16 = 0x0000#16
      ∧ s.mem16 0#16 0x1FFA#16 = 0x0102#16 ∧ s.reg16 .sp = 0x1FFA#16 := by
  decide +kernel

theorem test_CT27_into :
    let s := after ((put16 0x0012#16 0x1000#16 (put16 0x0010#16 0x0040#16 (v0 [0xCE#8]))).setFlag .of true)
    s.segs.cs = 0x1000#16 ∧ s.ip = 0x0040#16 ∧ s.mem16 0#16 0x1FFA#16 = 0x0101#16 := by
  decide +kernel

theorem test_CT28_iret :
    let s := after (put16 0x1FFE#16 0xFFFF#16 (put16 0x1FFC#16 0x1000#16 (put16 0x1FFA#16 0x0500#16 ((v0 [0xCF#8]).setReg16 .sp 0x1FFA#16))))
    s.ip = 0x0500#16 ∧ s.segs.cs = 0x1000#16 ∧ s.flags = 0xFFD7#16 ∧ s.reg16 .sp = 0x2000#16 := by
  decide +kernel

theorem test_CT29_jmp_far_0x0300 :
    let s := after (put16 0x0302#16 0x1000#16 (put16 0x0300#16 0x0040#16 (v0 [0xFF#8, 0x2E#8, 0x00#8, 0x03#8])))
    s.segs.cs = 0x1000#16 ∧ s.ip = 0x0040#16 := by
  decide +kernel

theorem test_CT30_call_bx :
    let s := after ((v0 [0xFF#8, 0xD3#8]).setReg16 .bx 0x0500#16)
    s.mem16 0#16 0x1FFE#16 = 0x0102#16 ∧ s.ip = 0x0500#16 ∧ s.reg16 .sp = 0x1FFE#16 := by
  decide +kernel

theorem test_CT32_call_far_0x0300 :
    let s := after (put16 0x0302#16 0x1000#16 (put16 0x0300#16 0x0040#16 (v0 [0xFF#8, 0x1E#8, 0x00#8, 0x03#8])))
    s.segs.cs = 0x1000#16 ∧ s.ip = 0x0040#16 ∧ s.mem16 0#16 0x1FFC#16 = 0x0104#16 ∧ s.mem16 0#16 0x1FFE#16 = 0x0000#16
      ∧ s.reg16 .sp = 0x1FFC#16 := by
  decide +kernel

theorem test_CT33_jmp_far_1000_0040 :
    let s := after (v0 [0xEA#8, 0x40#8, 0x00#8, 0x00#8, 0x10#8])
    s.segs.cs = 0x1000#16 ∧ s.ip = 0x0040#16 := by
  decide +kernel

theorem test_PC1_cmc :
    let s := after ((v0 [0xF5#8]).setFlag .cf true)
    s.flag .cf = false := by
  decide +kernel

theorem test_PC4_sti :
    let s := after (v0 [0xFB#8])
    s.flag .if_ = true ∧ s.flags = 0xF202#16 := by
  decide +kernel

theorem test_PC5_hlt :
    let s := after (v0 [0xF4#8])
    s.ip = 0x0101#16 ∧ s.halted = true := by
  decide +kernel

theorem test_PC8_esc :
    let s := after (v0 [0xD9#8, 0x06#8, 0x00#8, 0x03#8])
    s.ip = 0x0104#16 := by
  decide +kernel

theorem test_PC9_lock_nop :
    let s := after (v0 [0xF0#8, 0x90#8])
    s.ip = 0x0102#16 := by
  decide +kernel

theorem test_PC12_es_cs_mov_al :
    let s := after ((put8 0x0400 0x22#8 (put8 0x0300 0x11#8 (v0 [0x26#8, 0x2E#8, 0xA0#8, 0x00#8, 0x03#8]))).setSReg .es 0x0010#16)
    s.reg8 .al = 0x11#8 ∧ s.ip = 0x0105#16 := by
  decide +kernel

theorem test_PC13_mov_al :
    let s := after (((put8 0x0010 0x44#8 (put8 0x0310 0x33#8 (v0 [0x8A#8, 0x46#8, 0x00#8]))).setReg16 .bp 0x0010#16).setSReg .ss 0x0030#16)
    s.reg8 .al = 0x33#8 := by
  decide +kernel

theorem test_PC14_ds_mov_al :
    let s := after (((put8 0x0010 0x44#8 (put8 0x0310 0x33#8 (v0 [0x3E#8, 0x8A#8, 0x46#8, 0x00#8]))).setReg16 .bp 0x0010#16).setSReg .ss 0x0030#16)
    s.reg8 .al = 0x44#8 := by
  decide +kernel

theorem test_G7_gap :
    let s := after (v0 [0xFE#8, 0x16#8, 0x00#8, 0x03#8])
    s.ip = 0x0104#16 ∧ s.diag.length = 1 := by
  decide +kernel

theorem test_G8_gap :
    let s := after (v0 [0x26#8, 0x0F#8])
    s.ip = 0x0102#16 ∧ s.diag.length = 1 := by
  decide +kernel

/-! ## Witnesses: a state and operands that meet the hypotheses of each statement, clause by clause -/

/-- Whether an execution answers a next state with its cycles, and the state is as `p` says. -/
def runsTo (o : Stepped) (p : State → Bool) : Bool :=
  match o with
  | .next (t, some _) => p t
  | .next (_, none) => false
  | .fault _ => false
  | .refused _ => false

theorem exists_of_runsTo {o : Stepped} {p : State → Bool} (h : runsTo o p = true) :
    ∃ t c, o = .next (t, some c) ∧ p t = true := by
  cases o with
  | next q =>
    obtain ⟨t, c⟩ := q
    cases c with
    | none => simp [runsTo] at h
    | some c => exact ⟨t, c, rfl, h⟩
  | fault r => simp [runsTo] at h
  | refused r => simp [runsTo] at h

/-- Whether the state of an outcome is as `p` says. -/
def nextIs (o : Result) (p : State → Bool) : Bool :=
  match o with
  | .next t => p t
  | .fault _ => false
  | .refused _ => false

theorem exists_of_nextIs {o : Result} {p : State → Bool} (h : nextIs o p = true) : ∃ t, o = .next t ∧ p t = true := by
  cases o with
  | next t => exact ⟨t, rfl, h⟩
  | fault r => simp [nextIs] at h
  | refused r => simp [nextIs] at h

/-- `small` with the interrupt controller's two registers. -/
def withIc (en pend : Byte) : State := { small with ic := { enable := en, pending := pend } }

/-- `small` under a repeat prefix. -/
def repeating (k : RepKind) (cx : Word) : State :=
  { small.setReg16 .cx cx with cur := { rep := some k } }

/-- `small` where the most negative quotient is an error. -/
def strictDiv : State := { small with cfg := { small.cfg with idivMinOk := false } }

theorem witness_DivisionCompletes_div8 :
    let s := (small.setReg16 .ax 0x01FF#16).setReg8 .bl 2#8
    (s.rm8 (.reg .bl)).toNat ≠ 0 ∧ (s.reg16 .ax).toNat / (s.rm8 (.reg .bl)).toNat < 2 ^ 8 := by decide +kernel

theorem witness_DivisionCompletes_div16 :
    let s := ((small.setReg16 .dx 1#16).setReg16 .ax 0xFFFF#16).setReg16 .bx 2#16
    (s.rm16 (.reg .bx)).toNat ≠ 0
      ∧ ((s.reg16 .dx).toNat * 65536 + (s.reg16 .ax).toNat) / (s.rm16 (.reg .bx)).toNat < 2 ^ 16 := by decide +kernel

theorem witness_DivisionCompletes_idiv8 :
    let s := (small.setReg16 .ax 0xFF00#16).setReg8 .bl 2#8
    (s.rm8 (.reg .bl)).toInt ≠ 0 ∧ idivFits s.cfg 8 ((s.reg16 .ax).toInt.tdiv (s.rm8 (.reg .bl)).toInt) := by
  unfold idivFits
  decide +kernel

theorem witness_DivisionCompletes_idiv16 :
    let s := ((small.setReg16 .dx 0xFFFF#16).setReg16 .ax 0x0000#16).setReg16 .bx 2#16
    (s.rm16 (.reg .bx)).toInt ≠ 0
      ∧ idivFits s.cfg 16 (((s.reg16 .dx).toInt * 65536 + (s.reg16 .ax).toNat).tdiv (s.rm16 (.reg .bx)).toInt) := by
  unfold idivFits
  decide +kernel

theorem witness_DivisionCompletes_aam : aamBase small 1#8 ≠ 0 := by decide +kernel

theorem witness_DivideErrorTraps_div8 :
    (small.rm8 (.reg .bl)).toNat = 0
      ∧ let s := (small.setReg16 .ax 0x0200#16).setReg8 .bl 2#8
        2 ^ 8 ≤ (s.reg16 .ax).toNat / (s.rm8 (.reg .bl)).toNat := by decide +kernel

theorem witness_DivideErrorTraps_div16 :
    (small.rm16 (.reg .bx)).toNat = 0
      ∧ let s := (small.setReg16 .dx 2#16).setReg16 .bx 2#16
        2 ^ 16 ≤ ((s.reg16 .dx).toNat * 65536 + (s.reg16 .ax).toNat) / (s.rm16 (.reg .bx)).toNat := by decide +kernel

/-- A quotient of 128, and of -128 where that is an error. -/
theorem witness_DivideErrorTraps_idiv8 :
    (small.rm8 (.reg .bl)).toInt = 0
      ∧ (let s := (small.setReg16 .ax 0x0100#16).setReg8 .bl 2#8
         ¬idivFits s.cfg 8 ((s.reg16 .ax).toInt.tdiv (s.rm8 (.reg .bl)).toInt))
      ∧ let s := (strictDiv.setReg16 .ax 0xFF00#16).setReg8 .bl 2#8
        ¬idivFits s.cfg 8 ((s.reg16 .ax).toInt.tdiv (s.rm8 (.reg .bl)).toInt) := by
  unfold idivFits
  decide +kernel

theorem witness_DivideErrorTraps_idiv16 :
    (small.rm16 (.reg .bx)).toInt = 0
      ∧ let s := (small.setReg16 .dx 1#16).setReg16 .bx 2#16
        ¬idivFits s.cfg 16 (((s.reg16 .dx).toInt * 65536 + (s.reg16 .ax).toNat).tdiv (s.rm16 (.reg .bx)).toInt) := by
  unfold idivFits
  decide +kernel

theorem witness_DivideErrorTraps_aam : aamBase small 0#8 = 0 := by decide +kernel

/-- Masked counts of 0, 1 and 31. -/
theorem witness_ShiftAndRotateForms :
    (0x20#8 &&& small.cfg.shiftCountMask).toNat = 0 ∧ (0x21#8 &&& small.cfg.shiftCountMask).toNat = 1
      ∧ (0xFF#8 &&& small.cfg.shiftCountMask).toNat = 31 := by decide +kernel

theorem witness_PopForms :
    (Instr.popR16 .bx = .popR16 .bx ∨ Instr.popR16 .bx = .popEv (.reg .bx)) ∧ Reg16.bx ≠ .sp := by decide

theorem witness_StackBlocks :
    (0x20#8 : Byte).toNat % 32 = 0 ∧ (0x01#8 : Byte).toNat % 32 = 0 + 1 ∧ (0x3F#8 : Byte).toNat % 32 = 30 + 1 := by decide

theorem witness_ExchangeForms :
    (Instr.xchgEvGv (.reg .ax) .cx = .xchgEvGv (.reg .ax) .cx)
      ∧ (Reg16.ax = .ax ∧ Instr.xchgR16Ax .cx = .xchgR16Ax .cx) := by decide

theorem witness_StringTransfers :
    small.cur.rep = none ∧ ((repeating .rep 0#16).cur.rep = some .rep ∧ (repeating .rep 0#16).reg16 .cx = 0#16)
      ∧ ((repeating .repne 1#16).cur.rep = some .repne ∧ (repeating .repne 1#16).reg16 .cx ≠ 0#16) := by decide +kernel

theorem witness_StringCompares :
    small.cur.rep = none ∧ ((repeating .repne 0#16).cur.rep = some .repne ∧ (repeating .repne 0#16).reg16 .cx = 0#16)
      ∧ ((repeating .rep 0xFFFF#16).cur.rep = some .rep ∧ (repeating .rep 0xFFFF#16).reg16 .cx ≠ 0#16) := by decide +kernel

/-- The register equal to the lower bound, equal to the upper bound, and 1 below the lower one. -/
theorem witness_BoundChecks :
    let s := put16 0x302#16 4#16 small
    let m := Mem.direct 0x300#16
    ((s.mem16 (s.eaSeg m) (s.eaOff m)).toInt ≤ (s.reg16 .ax).toInt
        ∧ (s.reg16 .ax).toInt ≤ (s.mem16 (s.eaSeg m) (s.eaOff m + 2#16)).toInt)
      ∧ (let u := s.setReg16 .ax 4#16
         (u.mem16 (u.eaSeg m) (u.eaOff m)).toInt ≤ (u.reg16 .ax).toInt
          ∧ (u.reg16 .ax).toInt ≤ (u.mem16 (u.eaSeg m) (u.eaOff m + 2#16)).toInt)
      ∧ (let u := s.setReg16 .ax 0xFFFF#16
         (u.reg16 .ax).toInt < (u.mem16 (u.eaSeg m) (u.eaOff m)).toInt)
      ∧ let u := s.setReg16 .ax 5#16
        (u.mem16 (u.eaSeg m) (u.eaOff m + 2#16)).toInt < (u.reg16 .ax).toInt := by decide +kernel

theorem witness_InterruptInstructions :
    flagGet (small.setFlag .of true).flags .of = true ∧ ¬flagGet small.flags .of = true := by decide +kernel

/-- RAM of 16 KiB has aliases; the ROM window is not writable. -/
theorem witness_AliasedStores :
    let s := { small with cfg := { small.cfg with ramSize := 16384 } }
    ((s.locate 0x00005#20).writable = true ∧ s.locate 0x04005#20 = s.locate 0x00005#20)
      ∧ s.locate 0x00006#20 ≠ s.locate 0x00005#20 ∧ (s.locate 0x20000#20).writable = false := by decide +kernel

theorem witness_DefaultMemoryMap :
    small.cfg.memMap = ({} : Cfg).memMap ∧ (0x0FFFF#20).toNat < 0x10000
      ∧ (0x10000 ≤ (0x10000#20).toNat ∧ (0x1FFFF#20).toNat < 0x20000)
      ∧ (0x20000 ≤ (0x20000#20).toNat ∧ 0x20000 ≤ (0xFFFFF#20).toNat) := by decide +kernel

/-- The second clause of DefaultMemoryMap: the ROM sizes at both ends of its range. -/
theorem witness_DefaultMemoryMap_reset :
    (16 ≤ 16 ∧ 16 ≤ 28 ∧ ({ len := 65536 } : Rom).len = 2 ^ 16 ∧ 15 < 16)
      ∧ (16 ≤ 28 ∧ 28 ≤ 28 ∧ ({ len := 268435456 } : Rom).len = 2 ^ 28 ∧ 0 < 16) := by decide

/-- A step that leaves its first state, in trace mode; the trace grows there. -/
theorem witness_HostModesChangeNothing :
    (∃ t, step (v0 [0x90#8]) = .next t ∧ decide (t.trace = []) = true)
      ∧ ∃ t, step { v0 [0x90#8] with mode := .trace } = .next t ∧ decide (t.trace.length = 1) = true :=
  ⟨exists_of_nextIs (by decide +kernel), exists_of_nextIs (by decide +kernel)⟩

/-- The running states of the witnesses below. -/
theorem runs_v0 (bs : List Byte) (h : (v0 bs).cur = {} ∧ (v0 bs).halted = false ∧ (v0 bs).flag .if_ = false) : Runs (v0 bs) :=
  ⟨h.1, h.2.1, .inl h.2.2⟩

theorem witness_StepRunsDecodedInstruction :
    let s := v0 [0xB8#8, 0x34#8, 0x12#8]
    let i := Instr.movR16Iw .ax 0x1234#16
    Runs s ∧ i.wf = true ∧ i.isPrefix = false ∧ s.codeBytes s.ip i.len = encode i
      ∧ ∃ u, exec i ((started s).noteCode i.len) = .next u :=
  ⟨runs_v0 _ (by decide +kernel), by decide, by decide, by decide +kernel, next_of_isNext (by decide +kernel)⟩

theorem witness_StepReadsPrefixes :
    let s := v0 [0x26#8, 0xF3#8, 0xA4#8]
    let ps := [Instr.pfxEs, Instr.pfxRep]
    Runs s ∧ ps.length < 65536 ∧ (∀ p ∈ ps, p.isPrefix = true) ∧ Instr.movsb.wf = true ∧ Instr.movsb.isPrefix = false
      ∧ s.codeBytes s.ip (ps.length + Instr.movsb.len) = ps.flatMap encode ++ encode .movsb
      ∧ ∃ u, exec .movsb ((readPrefixes (started s) ps).noteCode Instr.movsb.len) = .next u :=
  ⟨runs_v0 _ (by decide +kernel), by decide, by decide, by decide, by decide, by decide +kernel,
    next_of_isNext (by decide +kernel)⟩

/-- A machine without a memory map, whose open bus reads as a prefix. -/
def prefixBus : State := { small with cfg := { small.cfg with memMap := [] }, ext := { small.ext with openBus := 0xF3#8 } }

theorem prefixBus_mem8 (off : Word) : prefixBus.mem8 prefixBus.segs.cs off = 0xF3#8 := rfl

theorem witness_PrefixesOnlyHang :
    Runs prefixBus ∧ ∀ off, prefixBus.mem8 prefixBus.segs.cs off
      ∈ [0x26#8, 0x2E#8, 0x36#8, 0x3E#8, 0xF0#8, 0xF2#8, 0xF3#8] :=
  ⟨⟨by decide +kernel, by decide +kernel, .inl (by decide +kernel)⟩, fun off => by rw [prefixBus_mem8]; decide⟩

theorem witness_DecodeGaps :
    0xF1#8 ∈ [0x0F#8, 0x63#8, 0x64#8, 0x65#8, 0x66#8, 0x67#8, 0xD6#8, 0xF1#8]
      ∧ ((Rm16.mem (.based .bp (.d8 0#8))).wf = true ∧ groupGap 0xFE#8 2#3 = true ∧ groupGap 0x8E#8 7#3 = true)
      ∧ 0x62#8 ∈ [0x8D#8, 0xC4#8, 0xC5#8, 0x62#8] := by decide

/-- A gap without prefixes, and a gap of a group form with a displacement after two prefixes (vector G8's shape). -/
theorem witness_GapStep :
    (let s := v0 [0x0F#8]
     let ps : List Instr := []
     Runs s ∧ ps.length < 65536 ∧ (∀ p ∈ ps, p.isPrefix = true) ∧ s.codeBytes s.ip ps.length = ps.flatMap encode
       ∧ decode (s.codeBytes (s.ip + BitVec.ofNat 16 ps.length) 6) = .gap .opcode 1)
      ∧ let s := v0 [0x26#8, 0xF3#8, 0xFE#8, 0x16#8, 0x00#8, 0x03#8]
        let ps := [Instr.pfxEs, Instr.pfxRep]
        Runs s ∧ ps.length < 65536 ∧ (∀ p ∈ ps, p.isPrefix = true) ∧ s.codeBytes s.ip ps.length = ps.flatMap encode
          ∧ decode (s.codeBytes (s.ip + BitVec.ofNat 16 ps.length) 6) = .gap .group 4 :=
  ⟨⟨runs_v0 _ (by decide +kernel), by decide, by decide, by decide, by decide +kernel⟩,
    runs_v0 _ (by decide +kernel), by decide, by decide, by decide +kernel, by decide +kernel⟩

theorem witness_DecodeOfEncode : (Instr.imulGvEvIw .di (.mem (.based .bxsi (.d16 0x1234#16))) 0x5678#16).wf = true := by
  decide

theorem witness_EncodeOfDecode :
    decode [0x69#8, 0xB8#8, 0x34#8, 0x12#8, 0x78#8, 0x56#8, 0x90#8]
      = .instr (.imulGvEvIw .di (.mem (.based .bxsi (.d16 0x1234#16))) 0x5678#16) [0x90#8] := by decide

theorem small_inv : Inv small where
  cfg := by decide +kernel
  ext := by decide +kernel
  ram := by decide +kernel
  rom := by decide +kernel
  save := by decide +kernel
  flags := by decide +kernel
  shadow := fun _ => by decide +kernel
  marks := fun r _ => by cases r <;> decide +kernel
  enable := by decide +kernel
  pending := by decide +kernel
  raised := by decide +kernel
  timers := by decide +kernel
  apu := by decide +kernel
  phases := by
    have e : small.ext.channels.zip small.apu = [(⟨.square, 0x80#16⟩, {})] := by decide +kernel
    intro p hp
    rw [e] at hp
    simp only [List.mem_singleton] at hp
    subst hp
    unfold phaseOk
    decide
  ppu := by unfold PpuOk; decide +kernel
  remPpu := by decide +kernel
  remApu := by decide +kernel
  remTimer := by decide +kernel
  cur := by decide +kernel

theorem witness_InvariantIsKept : Inv small ∧ ∃ t, step small = .next t :=
  ⟨small_inv, next_of_isNext (by decide +kernel)⟩

theorem witness_UnsetReadsAreRecorded :
    let s := State.resetWith {} OpenCfg.ex { len := 65536 } { size := 0 } .normal []
    s.locate (phys 0#16 0x0300#16) = .ram 0x300 ∧ s.cfg.resetRam = .unset := by decide +kernel

theorem witness_LogsOnlyGrow : ∃ t, step (v0 [0x0F#8]) = .next t ∧ decide (t.diag ≠ []) = true :=
  exists_of_nextIs (by decide +kernel)

theorem witness_SegmentWriters_cs :
    ∃ t, exec (.jmpAp 0#16 5#16) small = .next t ∧ decide (t.segs.cs ≠ small.segs.cs) = true :=
  exists_of_nextIs (by decide +kernel)

theorem witness_SegmentWriters_es : ∃ t, exec (.movEsEw (.reg .sp)) small = .next t ∧ decide (t.segs.es ≠ small.segs.es) = true :=
  exists_of_nextIs (by decide +kernel)

theorem witness_SegmentWriters_ss : ∃ t, exec (.movSsEw (.reg .sp)) small = .next t ∧ decide (t.segs.ss ≠ small.segs.ss) = true :=
  exists_of_nextIs (by decide +kernel)

theorem witness_SegmentWriters_ds : ∃ t, exec (.movDsEw (.reg .sp)) small = .next t ∧ decide (t.segs.ds ≠ small.segs.ds) = true :=
  exists_of_nextIs (by decide +kernel)

/-- Two sources wait, and the one with the higher priority is taken. -/
theorem witness_TopSourceIsTaken :
    let s := withIc 0x07#8 0x05#8
    s.ext.wf s.cfg = true ∧ s.highestPending = some 2 ∧ s.ic.pending.getLsbD 0 = true ∧ s.ic.enable.getLsbD 0 = true
      ∧ (withIc 0x02#8 0x05#8).highestPending = none := by decide +kernel

theorem witness_RaiseAndAcknowledge : small.ext.nSources ≤ 8 ∧ 2 < small.ext.nSources ∧ 7 < 8 := by decide +kernel

theorem witness_InterruptAcceptance :
    let s := (withIc 0x01#8 0x01#8).setFlag .if_ true
    s.flag .if_ = true ∧ s.shadow = false ∧ s.highestPending = some 0 := by decide +kernel

/-- Halted with IF = 1 and nothing enabled; halted with IF = 0 and a source waiting. -/
theorem witness_HaltAndWake_halted :
    (let s := ((withIc 0x00#8 0x01#8).setFlag .if_ true).setHalted true
     s.cur = {} ∧ s.halted = true ∧ (s.flag .if_ = true → s.shadow = false → s.highestPending = none)
       ∧ (s.cfg.haltWakeIgnoresIf = true → s.highestPending = none))
      ∧ let s := (withIc 0x01#8 0x01#8).setHalted true
        s.cur = {} ∧ s.halted = true ∧ s.flag .if_ = false ∧ (s.cfg.haltWakeIgnoresIf = false ∨ s.ic.enable = 0#8) := by
  decide +kernel

theorem witness_HaltAndWake_woken :
    let s := { (withIc 0x01#8 0x01#8).setHalted true with cfg := { small.cfg with haltWakeIgnoresIf := true } }
    s.halted = true ∧ s.flag .if_ = false ∧ s.cfg.haltWakeIgnoresIf = true ∧ s.highestPending ≠ none := by decide +kernel

theorem witness_SingleStepTrap_taken :
    let s := (v0 [0x90#8]).setFlag .tf true
    ∃ t c, (started s).execute = .next (t, some c)
      ∧ (t.cfg.singleStep && flagGet s.flags .tf && !t.cur.entered) = true :=
  exists_of_runsTo (by decide +kernel)

theorem witness_SingleStepTrap_not_taken :
    let s := v0 [0x90#8]
    ∃ t c, (started s).execute = .next (t, some c) ∧ (!flagGet s.flags .tf) = true :=
  exists_of_runsTo (p := fun _ => !flagGet (v0 [0x90#8]).flags .tf) (by decide +kernel)

/-- A stopped unit, a count of 2, and each end of a period. -/
theorem witness_TimerTicks :
    let t : Timer := { count := 2#16, reload := 2#16, en := true, auto := true }
    let once : Timer := { count := 1#16, reload := 7#16, en := true, auto := false }
    ({} : Timer).en = false ∧ (t.en = true ∧ t.count ≠ 0#16 ∧ t.count ≠ 1#16)
      ∧ (t.en = true ∧ t.auto = true ∧ ({ t with count := 0#16 } : Timer).count = 0#16
        ∧ ({ t with count := 1#16 } : Timer).count.toNat ≤ 1)
      ∧ (once.en = true ∧ once.auto = false ∧ once.count.toNat ≤ 1 ∧ ({ once with count := 0#16 } : Timer).count = 0#16)
      ∧ (t.count = t.reload ∧ 2 ≤ t.reload.toNat ∧ 1 < max 1 t.reload.toNat)
      ∧ (({ en := true, auto := true } : Timer).count = ({ en := true, auto := true } : Timer).reload ∧ 0 < max 1 0)
      ∧ ((timerStep .onReachZero once).2 = true ∧ 0 < small.timers.length) := by decide +kernel

/-- A dot inside a line, the dot before HBlank, the dot before VBlank, and the dot that ends line 1 with a row 0 composed. -/
theorem witness_PpuSequence :
    (small.ext.wf small.cfg = true ∧ PpuOk small.ext {}
      ∧ (PpuOk small.ext { line := 143, dot := 223 } ∧ 223 + 1 = small.ext.visibleDots ∧ 143 < small.ext.visibleLines)
      ∧ PpuOk small.ext { line := 143, dot := 255, mode := .hblank } ∧ 255 + 1 = small.ext.lineDots
      ∧ 143 + 1 = small.ext.visibleLines)
    ∧ let s := small.setPpu { line := 1, dot := 255, mode := .hblank, fbWork := [[]] }
      s.ppu.dot + 1 = s.ext.lineDots ∧ s.ppu.line < s.ext.visibleLines ∧ 223 < s.ext.visibleDots
        ∧ 0 < s.ppu.fbWork.length ∧ 0 ≠ s.ppu.line := by
  unfold PpuOk
  decide +kernel

/-- A stopped channel, and running ones at each case of the divider and of the envelope. -/
theorem witness_ApuTickAndMute :
    (small.ext.channels[0]? = some ⟨.square, 0x80#16⟩ ∧ small.apu[0]? = some ({} : Channel)
        ∧ ({} : Channel).ctrl.getLsbD 0 = false)
      ∧ (let c : Channel := { ctrl := 0x01#8, envReg := 0x41#8 }
         let d : Channel := { ctrl := 0x01#8, envReg := 0xBF#8, div := 1#16, env := 1#8 }
         let e : Channel := { ctrl := 0x01#8, envReg := 0xC1#8 }
         (c.ctrl.getLsbD 0 = true ∧ c.div = 0#16 ∧ c.envReg.toNat % 64 ≠ 0 ∧ c.envReg.toNat / 64 = 1 ∧ c.env = 0#8)
         ∧ (d.ctrl.getLsbD 0 = true ∧ d.div ≠ 0#16 ∧ d.envReg.toNat % 64 ≠ 0 ∧ d.envReg.toNat / 64 = 2 ∧ d.env ≠ 0#8)
         ∧ (e.ctrl.getLsbD 0 = true ∧ e.envReg.toNat / 64 = 3))
      ∧ small.mode = .normal ∧ ({ small with mode := .mute } : State).mode ≠ .normal := by decide +kernel

/-- APU tick from profile EX's channel: the phase wraps from 7 to 0, the divider reloads, the envelope lowers the volume,
and the sample is the volume of the duty's first step (R581-R583). -/
theorem test_apuTick :
    let c : Channel := { phase := 7#15, period := 5#16, vol := 9#4, envReg := 0x83#8, ctrl := 0x03#8 }
    let s := ({ small with apu := [c] } : State).apuTick
    s.apu = [{ c with phase := 0#15, div := 5#16, vol := 8#4, env := 3#8 }] ∧ s.samples = [8] := by decide +kernel

theorem witness_DevicePorts :
    small.ext.wf small.cfg = true ∧ BitVec.ofNat 16 ((0x00B3#16).toNat % 2 ^ small.cfg.portWidth) ∉ ownedPorts small.cfg small.ext
      ∧ small.input = [] := by decide +kernel

/-- A port number of 8 bits: port 01C0 is port C0, the linear bank register (R10, R113). -/
theorem test_portWidth :
    ((({ small with cfg := { small.cfg with portWidth := 8 } } : State).portWrite8 0x01C0#16 0x12#8).banks.lin = 0x12#8)
      ∧ (small.portWrite8 0x01C0#16 0x12#8).banks.lin = 0xFF#8 := by decide +kernel

theorem witness_TimerPorts :
    small.ext.wf small.cfg = true ∧ small.ext.timers[0]? = some ⟨0, 0xA2#16, 0xA4#16, 0xA5#16, 0xA8#16, 0xA9#16⟩
      ∧ small.timers[0]? = some ({} : Timer) ∧ (0xA9#16 : Word) = 0xA8#16 + 1#16
      ∧ ∃ r, exec .inAxDx small = .next r := ⟨by decide +kernel, by decide +kernel, by decide +kernel, by decide +kernel, _, rfl⟩

/-- A stopped channel that a write starts. -/
theorem witness_ApuPorts :
    small.ext.wf small.cfg = true ∧ small.ext.channels[0]? = some ⟨.square, 0x80#16⟩ ∧ small.apu[0]? = some ({} : Channel)
      ∧ (({} : Channel).ctrl.getLsbD 0 = false ∧ (0x01#8).getLsbD 0 = true) := by decide +kernel

/-- `small` with a frame of two lines of two dots. -/
def tiny : State :=
  { v0 [0x90#8, 0x90#8, 0x90#8, 0x90#8] with
    ext := { small.ext with lineDots := 2, visibleDots := 1, visibleLines := 1, totalLines := 2 } }

/-- What the frame run of a state reports, its pixels apart. -/
def reportIs (o : Option (Host.Outcome (FrameReport × State) Fault Refusal)) (cycles : Nat) (raised : BitVec 8) : Bool :=
  match o with
  | some (.next (r, t)) => decide (r.cycles = cycles) && decide (r.raised = raised) && r.frame.isSome && !t.ppu.vblankEdge
  | _ => false

/-- A frame of two dots: two cycles, and HBlank and VBlank raised (R590, R621). -/
theorem test_runFrame : reportIs (runFrame 4 tiny) 2 0x06#8 = true := by decide +kernel

/-- An execution step, a halted step, and a frame run that answers. -/
theorem witness_SchedulerStep :
    (2 < (⟨2, 3⟩ : Ratio).q ∧ 0 < (⟨2, 3⟩ : Ratio).q)
      ∧ (∃ t c, (v0 [0x90#8]).cpuStep = .next (t, some c)) ∧ (∃ t, (small.setHalted true).cpuStep = .next (t, none))
      ∧ ∃ t r, runFrame 4 tiny = some (.next (r, t)) := by
  refine ⟨by decide, ?_, ⟨_, rfl⟩, ?_⟩
  · obtain ⟨t, c, h, -⟩ := exists_of_runsTo (o := (v0 [0x90#8]).cpuStep) (p := fun _ => true) (by decide +kernel)
    exact ⟨t, c, h⟩
  · have h := test_runFrame
    unfold reportIs at h
    split at h
    · exact ⟨_, _, by assumption⟩
    · simp at h

/-- Whether the start interaction builds a machine. -/
def starts (f : RomFile) : Bool :=
  match start {} OpenCfg.ex f .normal [1#8, 0#8] [] with
  | .ok _ => true
  | .error _ => false

theorem exists_of_starts {f : RomFile} (h : starts f = true) : ∃ s, start {} OpenCfg.ex f .normal [1#8, 0#8] [] = .ok s := by
  unfold starts at h
  split at h
  · exact ⟨_, by assumption⟩
  · simp at h

/-- The two reset modes, a start without and with an image, and a string of as many bytes as the cartridge has. -/
theorem witness_ResetState :
    (({} : Cfg).resetGpr = .unset ∧ ({} : Cfg).resetRam = .unset)
      ∧ (({ resetGpr := .zero, resetRam := .zero } : Cfg).resetGpr = .zero
        ∧ ({ resetGpr := .zero, resetRam := .zero } : Cfg).resetRam = .zero)
      ∧ (∃ s, start {} OpenCfg.ex .absent .normal [1#8, 0#8] [] = .ok s)
      ∧ (∃ s, start {} OpenCfg.ex (.image [0x90#8]) .normal [1#8, 0#8] [] = .ok s)
      ∧ [7#8, 0#8].length = ({ small with save := saveOf [1#8, 2#8] } : State).save.size :=
  ⟨by decide, by decide, exists_of_starts (by decide +kernel), exists_of_starts (by decide +kernel), by decide +kernel⟩

/-- A host write of one byte more than the cartridge has drops it, and one of a byte less keeps the last (Log 28). -/
theorem test_saveIn :
    let s : State := { small with save := saveOf [1#8, 2#8] }
    (s.saveIn [7#8, 0#8, 9#8]).saveOut = [7#8, 0#8] ∧ (s.saveIn [7#8]).saveOut = [7#8, 2#8] := by decide +kernel


/-- A machine with every general register and RAM byte unset. -/
def blank : State := State.resetWith {} OpenCfg.ex { len := 65536 } { size := 0 } .normal []

/-- A read-modify-write operand in memory records its address register, its byte and the other operand (R53, R70, R80). -/
theorem test_addRecords :
    nextIs (exec (.addEbGb (.mem (.based .bx .none)) .cl) blank)
      (fun t => t.faults == [.readUnset (.half .bl), .readUnset (.half .bh), .readUnset (.ram 0), .readUnset (.half .cl)])
      = true := by decide +kernel

/-- An interrupt entry records SP once and the four bytes of its vector (R53, R490). -/
theorem test_intRecords :
    nextIs (exec (.intIb 5#8) blank)
      (fun t => t.faults == [.readUnset (.word .sp), .readUnset (.ram 20), .readUnset (.ram 21), .readUnset (.ram 22),
        .readUnset (.ram 23)]) = true := by decide +kernel

/-- In a state whose save memory has two banks, a store through the selected bank leaves the byte of the other. -/
theorem witness_AliasedStores_banks :
    let s : State := { small with save := { size := 131072 }, banks := { small.banks with save := 0#8 } }
    s.locate 0x10005#20 = .save 5 ∧ Place.save 65541 ≠ s.locate 0x10005#20 ∧ (s.locate 0x10005#20).writable = true := by
  decide +kernel

end Sys2Proof.Tests
end

namespace Sys2Proof.Machine

/-! ## The updates that an instruction is made of -/

/-- The nine flags of FLAGS (R38). -/
def allFlags : List Flag := [.cf, .pf, .af, .zf, .sf, .tf, .if_, .df, .of]

/-- One update of the state by an instruction; `W` says which segment registers may be loaded. -/
inductive Update (W : SReg → Bool) : State → State → Prop where
  | record (s : State) (l : List FaultRecord) : Update W s (s.record l)
  | setReg16 (s : State) (r : Reg16) (v : Word) : Update W s (s.setReg16 r v)
  | setReg8 (s : State) (r : Reg8) (v : Byte) : Update W s (s.setReg8 r v)
  | setFlags (s : State) (fl : Word) (h : KeptFlags allFlags s.flags fl) : Update W s (s.setFlags fl)
  | writeFlags (s : State) (v : Word) : Update W s (s.writeFlags v)
  | busWrite8 (s : State) (a : Phys) (b : Byte) : Update W s (s.busWrite8 a b)
  | portWrite8 (s : State) (p : Word) (v : Byte) : Update W s (s.portWrite8 p v)
  | setSReg (s : State) (r : SReg) (v : Word) (h : W r = true) : Update W s (s.setSReg r v)
  | setIp (s : State) (v : Word) : Update W s (s.setIp v)
  | setHalted (s : State) (b : Bool) : Update W s (s.setHalted b)
  | setShadow (s : State) : Update W s s.setShadow
  | setCur (s : State) (c : StepCtx) : Update W s (s.setCur c)

/-- The state `t` is reached from `s` by updates. -/
def Reaches (W : SReg → Bool) (s t : State) : Prop := Relation.ReflTransGen (Update W) s t

/-- The segment registers that an instruction may write (R35). -/
def segWrites (i : Instr) : SReg → Bool
  | .cs => writesCs i
  | r => writesData r i

namespace Reaches

variable {W : SReg → Bool} {s u : State}

theorem refl (W : SReg → Bool) (s : State) : Reaches W s s := Relation.ReflTransGen.refl

/-- What every update keeps holds of every state reached. -/
theorem keeps {P : State → Prop} (hP : ∀ {a b}, Update W a b → P a → P b) (h : Reaches W s u) (hs : P s) : P u := by
  induction h with
  | refl => exact hs
  | tail _ hab ih => exact hP hab ih

/-! ### Single updates -/

theorem record (h : Reaches W s u) (l : List FaultRecord) : Reaches W s (u.record l) := h.tail (.record u l)

theorem setReg16 (h : Reaches W s u) (r : Reg16) (v : Word) : Reaches W s (u.setReg16 r v) := h.tail (.setReg16 u r v)

theorem setReg8 (h : Reaches W s u) (r : Reg8) (v : Byte) : Reaches W s (u.setReg8 r v) := h.tail (.setReg8 u r v)

theorem setFlags (h : Reaches W s u) {fl : Word} (hf : KeptFlags allFlags u.flags fl) : Reaches W s (u.setFlags fl) :=
  h.tail (.setFlags u fl hf)

theorem writeFlags (h : Reaches W s u) (v : Word) : Reaches W s (u.writeFlags v) := h.tail (.writeFlags u v)

theorem writeMem8 (h : Reaches W s u) (sg off : Word) (v : Byte) : Reaches W s (u.writeMem8 sg off v) :=
  h.tail (.busWrite8 u _ v)

theorem portWrite8 (h : Reaches W s u) (p : Word) (v : Byte) : Reaches W s (u.portWrite8 p v) := h.tail (.portWrite8 u p v)

theorem setSReg (h : Reaches W s u) {r : SReg} (v : Word) (hr : W r = true) : Reaches W s (u.setSReg r v) :=
  h.tail (.setSReg u r v hr)

theorem setIp (h : Reaches W s u) (v : Word) : Reaches W s (u.setIp v) := h.tail (.setIp u v)

theorem advance (h : Reaches W s u) (i : Instr) : Reaches W s (u.advance i) := h.setIp _

theorem setHalted (h : Reaches W s u) (b : Bool) : Reaches W s (u.setHalted b) := h.tail (.setHalted u b)

theorem setShadow (h : Reaches W s u) : Reaches W s u.setShadow := h.tail (.setShadow u)

theorem setCur (h : Reaches W s u) (c : StepCtx) : Reaches W s (u.setCur c) := h.tail (.setCur u c)

/-! ### FLAGS -/

theorem setFlag (h : Reaches W s u) (f : Flag) (b : Bool) : Reaches W s (u.setFlag f b) :=
  h.setFlags ((KeptFlags.rfl' _ _).put (by cases f <;> decide) b)

/-- A computation that writes arithmetic flags only, from the FLAGS of a state that has the same. -/
theorem setArith (h : Reaches W s u) {fl fl0 : Word} (h0 : u.flags = fl0) (hf : KeptFlags arithFlags fl0 fl) :
    Reaches W s (u.setFlags fl) := by
  subst h0
  exact h.setFlags (hf.mono (by decide))

/-! ### Memory and ports -/

theorem writeMem16 (h : Reaches W s u) (sg off v : Word) : Reaches W s (u.writeMem16 sg off v) :=
  (h.writeMem8 sg off _).writeMem8 sg _ _

theorem write8 (h : Reaches W s u) (l : Loc8) (v : Byte) : Reaches W s (u.write8 l v) := by
  cases l with
  | reg r => exact h.setReg8 r v
  | mem sg off => exact h.writeMem8 sg off v

theorem write16 (h : Reaches W s u) (l : Loc16) (v : Word) : Reaches W s (u.write16 l v) := by
  cases l with
  | reg r => exact h.setReg16 r v
  | mem sg off => exact h.writeMem16 sg off v

theorem portWrite16 (h : Reaches W s u) (p v : Word) : Reaches W s (u.portWrite16 p v) :=
  (h.portWrite8 p _).portWrite8 _ _

/-! ### The stack, transfers and interrupt entries -/

theorem push (h : Reaches W s u) (v : Word) : Reaches W s (u.push v) := ((h.record _).setReg16 .sp _).writeMem16 _ _ v

theorem drop (h : Reaches W s u) : Reaches W s u.drop := ((h.record _).record _).setReg16 .sp _

theorem pushReg (h : Reaches W s u) (r : Reg16) : Reaches W s (u.pushReg r) := (h.record _).push _

theorem popReg (h : Reaches W s u) (r : Reg16) : Reaches W s (u.popReg r) := h.drop.setReg16 r _

theorem setCsIp (h : Reaches W s u) (sel off : Word) (hc : W .cs = true) : Reaches W s (u.setCsIp sel off) :=
  (h.setSReg sel hc).setIp off

theorem enter (h : Reaches W s u) (n : Byte) (ret : Word) (hc : W .cs = true) : Reaches W s (u.enter n ret) :=
  ((((((((h.push _).setFlag .if_ false).setFlag .tf false).push _).push ret).record _).record _).setCsIp _ _ hc
    |>.setHalted false).setCur _

theorem leaveInterrupt (h : Reaches W s u) (hc : W .cs = true) : Reaches W s u.leaveInterrupt :=
  ((h.drop.drop.drop).setCsIp _ _ hc).writeFlags _

theorem pushGeneral (h : Reaches W s u) (r : Reg16) : Reaches W s (u.pushGeneral r) := by
  unfold State.pushGeneral
  split
  · exact h.push _
  · exact h.pushReg r

theorem pushAll (h : Reaches W s u) : Reaches W s u.pushAll :=
  ((((((((h.record _).pushReg .ax).pushReg .cx).pushReg .dx).pushReg .bx).push _).pushReg .bp).pushReg .si).pushReg .di

theorem popAll (h : Reaches W s u) : Reaches W s u.popAll :=
  (((((((h.popReg .di).popReg .si).popReg .bp).setReg16 .sp _).popReg .bx).popReg .dx).popReg .cx).popReg .ax

theorem copyDisplay (n : Nat) (h : Reaches W s u) : Reaches W s (u.copyDisplay n) := by
  induction n generalizing u with
  | zero => exact h
  | succ n ih => exact ih ((((h.record _).setReg16 .bp _).record _).push _)

theorem enterFrame (h : Reaches W s u) (size : Word) (level : Nat) : Reaches W s (u.enterFrame size level) := by
  have hp := h.pushReg .bp
  unfold State.enterFrame
  simp only []
  split
  · exact (hp.setReg16 .bp _).setReg16 .sp _
  · exact (((hp.copyDisplay _).push _).setReg16 .bp _).setReg16 .sp _

theorem leaveFrame (h : Reaches W s u) : Reaches W s u.leaveFrame := ((h.record _).setReg16 .sp _).popReg .bp

theorem callFar (h : Reaches W s u) (i : Instr) (sel off : Word) (hc : W .cs = true) : Reaches W s (u.callFar i sel off) :=
  ((h.push _).push _).setCsIp sel off hc

theorem branch (h : Reaches W s u) (i : Instr) (taken : Bool) (rel : Byte) : Reaches W s (u.branch i taken rel) := by
  cases taken with
  | true => exact h.setIp _
  | false => exact h.advance i

theorem loop (h : Reaches W s u) (i : Instr) (c : Bool) (rel : Byte) : Reaches W s (u.loop i c rel) :=
  ((h.record _).setReg16 .cx _).branch i _ rel

/-! ### Data transfer -/

theorem mov8 (h : Reaches W s u) (e : Rm8) (x : Src8) : Reaches W s (u.mov8 e x) := (h.record _).write8 _ _

theorem mov16 (h : Reaches W s u) (e : Rm16) (x : Src16) : Reaches W s (u.mov16 e x) := (h.record _).write16 _ _

theorem movFromSReg (h : Reaches W s u) (e : Rm16) (r : SReg) : Reaches W s (u.movFromSReg e r) := (h.record _).write16 _ _

theorem movToSReg (h : Reaches W s u) {r : SReg} (e : Rm16) (hr : W r = true) : Reaches W s (u.movToSReg r e) :=
  ((h.record _).record _).setSReg _ hr

theorem popSReg (h : Reaches W s u) {r : SReg} (hr : W r = true) : Reaches W s (u.popSReg r) := h.drop.setSReg _ hr

theorem popRm (h : Reaches W s u) (e : Rm16) : Reaches W s (u.popRm e) := (h.record _).drop.write16 _ _

theorem xchg8 (h : Reaches W s u) (e : Rm8) (g : Reg8) : Reaches W s (u.xchg8 e g) := ((h.record _).write8 _ _).setReg8 g _

theorem xchg16 (h : Reaches W s u) (e : Rm16) (g : Reg16) : Reaches W s (u.xchg16 e g) :=
  ((h.record _).write16 _ _).setReg16 g _

theorem loadFar (h : Reaches W s u) {r : SReg} (g : Reg16) (m : Mem) (hr : W r = true) : Reaches W s (u.loadFar r g m) :=
  ((((h.record _).record _).record _).setReg16 g _).setSReg _ hr

theorem translate (h : Reaches W s u) : Reaches W s u.translate := (((h.record _).record _).record _).setReg8 .al _

theorem noteFar (h : Reaches W s u) (m : Mem) : Reaches W s (u.noteFar m) := ((h.record _).record _).record _

theorem fetch16 (h : Reaches W s u) (e : Rm16) : Reaches W s (u.fetch16 e) := (h.record _).record _

/-! ### Arithmetic and logic -/

end Reaches

/-- The flags that an ALU operation writes (R260-R265, R320-R323). -/
theorem aluFlags_kept {w : Nat} (hw : 4 < w) (op : AluOp) (a b : BitVec w) (fl : Word) :
    KeptFlags arithFlags fl (aluFlags op a b fl) := by
  have hadd (c : Bool) : KeptFlags arithFlags fl (addFlags a b c fl) := (addFlags_spec hw a b c fl).1.2.2.2.2
  have hsub (c : Bool) : KeptFlags arithFlags fl (subFlags a b c fl) := (subFlags_spec hw a b c fl).1.2.2.2.2
  have hlog (o : Config.UndefOp) (r : BitVec w) : KeptFlags arithFlags fl (logicFlags o a b r fl) :=
    (logicFlags_spec o a b r fl).2.2.2
  cases op with
  | add | adc => exact hadd _
  | sub | sbb | cmp => exact hsub _
  | or | and | xor => exact hlog _ _

/-- The flags that a shift or rotate writes (R327-R333). -/
theorem shiftFlags_kept {w : Nat} (op : ShiftOp) (x : BitVec w) (n : Nat) (fl : Word) :
    KeptFlags arithFlags fl (shiftFlags op x n fl) := by
  unfold shiftFlags
  extract_lets p fl1 fl2
  have h1 : KeptFlags arithFlags fl fl1 := (KeptFlags.rfl' _ _).put (by decide) _
  have h2 : KeptFlags arithFlags fl fl2 := by
    unfold fl2
    split
    · exact h1.put (by decide) _
    · exact KeptFlags.draw _ _ _ _ _ [.of] h1 (by decide)
  split
  · exact KeptFlags.draw _ _ _ _ _ [.af] (h2.szp _ (by decide) (by decide) (by decide)) (by decide)
  · exact h2

theorem decimalFlags_kept (op : Config.UndefOp) (old : Byte) (r : Byte × Bool × Bool) (fl : Word) :
    KeptFlags arithFlags fl (decimalFlags op old r fl) :=
  KeptFlags.draw _ _ _ _ _ _ ((((KeptFlags.rfl' _ _).put (by decide) _).put (by decide) _).szp _ (by decide) (by decide)
    (by decide)) (by decide)

theorem asciiFlags_kept (op : Config.UndefOp) (ax : Word) (adj : Bool) (fl : Word) :
    KeptFlags arithFlags fl (asciiFlags op ax adj fl) :=
  KeptFlags.draw _ _ _ _ _ _ (((KeptFlags.rfl' _ _).put (by decide) _).put (by decide) _) (by decide)

theorem sahfFlags_kept (ah : Byte) (fl : Word) : KeptFlags arithFlags fl (sahfFlags ah fl) :=
  (((((KeptFlags.rfl' _ _).put (by decide) _).put (by decide) _).put (by decide) _).put (by decide) _).put (by decide) _

namespace Reaches

variable {W : SReg → Bool} {s u : State}

theorem alu8 (h : Reaches W s u) (op : AluOp) (e : Rm8) (x : Src8) : Reaches W s (u.alu8 op e x) := by
  have hf := (h.record _).setArith (u := u.fetchPair8 e x) rfl (aluFlags_kept (by omega) op (u.rm8 e) (u.src8 x) u.flags)
  unfold State.alu8
  simp only []
  split
  · exact hf
  · exact hf.write8 _ _

theorem alu16 (h : Reaches W s u) (op : AluOp) (e : Rm16) (x : Src16) : Reaches W s (u.alu16 op e x) := by
  have hf := (h.record _).setArith (u := u.fetchPair16 e x) rfl (aluFlags_kept (by omega) op (u.rm16 e) (u.src16 x) u.flags)
  unfold State.alu16
  simp only []
  split
  · exact hf
  · exact hf.write16 _ _

theorem test8 (h : Reaches W s u) (e : Rm8) (x : Src8) : Reaches W s (u.test8 e x) :=
  (h.record _).setArith rfl (logicFlags_spec _ _ _ _ _).2.2.2

theorem test16 (h : Reaches W s u) (e : Rm16) (x : Src16) : Reaches W s (u.test16 e x) :=
  (h.record _).setArith rfl (logicFlags_spec _ _ _ _ _).2.2.2

theorem unary8 (h : Reaches W s u) {f : Byte → Byte} {g : Byte → Word → Word} (hg : ∀ a fl, KeptFlags arithFlags fl (g a fl))
    (e : Rm8) : Reaches W s (u.unary8 f g e) :=
  (((h.record _).record _).setArith rfl (hg _ _)).write8 _ _

theorem unary16 (h : Reaches W s u) {f : Word → Word} {g : Word → Word → Word}
    (hg : ∀ a fl, KeptFlags arithFlags fl (g a fl)) (e : Rm16) : Reaches W s (u.unary16 f g e) :=
  (((h.record _).record _).setArith rfl (hg _ _)).write16 _ _

theorem inc8 (h : Reaches W s u) (e : Rm8) : Reaches W s (u.inc8 e) :=
  h.unary8 (fun a fl => (incFlags_spec (by omega) a fl).1.2.2.2.2) e

theorem inc16 (h : Reaches W s u) (e : Rm16) : Reaches W s (u.inc16 e) :=
  h.unary16 (fun a fl => (incFlags_spec (by omega) a fl).1.2.2.2.2) e

theorem dec8 (h : Reaches W s u) (e : Rm8) : Reaches W s (u.dec8 e) :=
  h.unary8 (fun a fl => (decFlags_spec (by omega) a fl).1.2.2.2.2) e

theorem dec16 (h : Reaches W s u) (e : Rm16) : Reaches W s (u.dec16 e) :=
  h.unary16 (fun a fl => (decFlags_spec (by omega) a fl).1.2.2.2.2) e

theorem neg8 (h : Reaches W s u) (e : Rm8) : Reaches W s (u.neg8 e) :=
  h.unary8 (fun a fl => (neg_spec (by omega) a fl).1.2.2.2.2) e

theorem neg16 (h : Reaches W s u) (e : Rm16) : Reaches W s (u.neg16 e) :=
  h.unary16 (fun a fl => (neg_spec (by omega) a fl).1.2.2.2.2) e

theorem not8 (h : Reaches W s u) (e : Rm8) : Reaches W s (u.not8 e) := h.unary8 (fun _ _ => KeptFlags.rfl' _ _) e

theorem not16 (h : Reaches W s u) (e : Rm16) : Reaches W s (u.not16 e) := h.unary16 (fun _ _ => KeptFlags.rfl' _ _) e

theorem shift8 (h : Reaches W s u) (op : ShiftOp) (e : Rm8) (raw : Byte) : Reaches W s (u.shift8 op e raw) := by
  have hf : Reaches W s (u.fetch8 e) := (h.record _).record _
  unfold State.shift8
  simp only []
  split
  · exact hf
  · exact (hf.setArith rfl (shiftFlags_kept _ _ _ _)).write8 _ _

theorem shift16 (h : Reaches W s u) (op : ShiftOp) (e : Rm16) (raw : Byte) : Reaches W s (u.shift16 op e raw) := by
  have hf : Reaches W s (u.fetch16 e) := h.fetch16 e
  unfold State.shift16
  simp only []
  split
  · exact hf
  · exact (hf.setArith rfl (shiftFlags_kept _ _ _ _)).write16 _ _

theorem mul8 (h : Reaches W s u) (e : Rm8) : Reaches W s (u.mul8 e) :=
  ((((h.record _).record _).record _).setReg16 .ax _).setArith rfl (mulFlags_spec _ _ _ _ _ _).2.2

theorem imul8 (h : Reaches W s u) (e : Rm8) : Reaches W s (u.imul8 e) :=
  ((((h.record _).record _).record _).setReg16 .ax _).setArith rfl (mulFlags_spec _ _ _ _ _ _).2.2

theorem mul16 (h : Reaches W s u) (e : Rm16) : Reaches W s (u.mul16 e) :=
  (((((h.record _).record _).record _).setReg16 .dx _).setReg16 .ax _).setArith rfl (mulFlags_spec _ _ _ _ _ _).2.2

theorem imul16 (h : Reaches W s u) (e : Rm16) : Reaches W s (u.imul16 e) :=
  (((((h.record _).record _).record _).setReg16 .dx _).setReg16 .ax _).setArith rfl (mulFlags_spec _ _ _ _ _ _).2.2

theorem imul3 (h : Reaches W s u) (g : Reg16) (e : Rm16) (i : Word) : Reaches W s (u.imul3 g e i) :=
  ((h.fetch16 e).setReg16 g _).setArith rfl (mulFlags_spec _ _ _ _ _ _).2.2

theorem divWrite8 (h : Reaches W s u) (i : Instr) (op : Config.UndefOp) (n : Word) (d : Byte) (q : Option (Byte × Byte))
    (hc : W .cs = true) : Reaches W s (u.divWrite8 i op n d q) := by
  cases q with
  | none => exact h.enter _ _ hc
  | some p => exact ((h.setReg16 .ax _).setArith rfl (divFlags_spec _ _ _ _ _)).advance i

theorem divWrite16 (h : Reaches W s u) (i : Instr) (op : Config.UndefOp) (n : BitVec 32) (d : Word) (q : Option (Word × Word))
    (hc : W .cs = true) : Reaches W s (u.divWrite16 i op n d q) := by
  cases q with
  | none => exact h.enter _ _ hc
  | some p => exact (((h.setReg16 .ax _).setReg16 .dx _).setArith rfl (divFlags_spec _ _ _ _ _)).advance i

theorem fetchDiv8 (h : Reaches W s u) (e : Rm8) : Reaches W s (u.fetchDiv8 e) := ((h.record _).record _).record _

theorem fetchDiv16 (h : Reaches W s u) (e : Rm16) : Reaches W s (u.fetchDiv16 e) :=
  (((h.record _).record _).record _).record _

theorem decimalAdjust (h : Reaches W s u) (op : Config.UndefOp) (f : Byte → Bool → Bool → Byte × Bool × Bool) :
    Reaches W s (u.decimalAdjust op f) :=
  ((h.record _).setReg8 .al _).setArith rfl (decimalFlags_kept _ _ _ _)

theorem asciiAdjust (h : Reaches W s u) (op : Config.UndefOp) (f : Bool → Word → Bool → Word) :
    Reaches W s (u.asciiAdjust op f) := by
  unfold State.asciiAdjust
  simp only []
  split
  · exact ((h.record _).setReg16 .ax _).setArith rfl (asciiFlags_kept _ _ _ _)
  · exact ((h.record _).setReg8 .al _).setArith rfl (asciiFlags_kept _ _ _ _)

/-! ### Strings -/

theorem bump (h : Reaches W s u) (r : Reg16) (n : Word) : Reaches W s (u.bump r n) := h.setReg16 r _

theorem noteElem (h : Reaches W s u) (l m : List FaultRecord) : Reaches W s ((u.record l).record m) := (h.record l).record m

theorem putDst8 (h : Reaches W s u) (v : Byte) : Reaches W s (u.putDst8 v) := (h.record _).writeMem8 _ _ v

theorem putDst16 (h : Reaches W s u) (v : Word) : Reaches W s (u.putDst16 v) := (h.record _).writeMem16 _ _ v

theorem setSubFlags {w : Nat} (h : Reaches W s u) (hw : 4 < w) (a b : BitVec w) {fl : Word} (hf : u.flags = fl) :
    Reaches W s (u.setFlags (subFlags a b false fl)) :=
  h.setArith hf (subFlags_spec hw a b false fl).1.2.2.2.2

theorem movsElem8 (h : Reaches W s u) : Reaches W s u.movsElem8 :=
  (((h.noteElem _ _).putDst8 _).bump .si _).bump .di _

theorem movsElem16 (h : Reaches W s u) : Reaches W s u.movsElem16 :=
  (((h.noteElem _ _).putDst16 _).bump .si _).bump .di _

theorem cmpsElem8 (h : Reaches W s u) : Reaches W s u.cmpsElem8 :=
  ((((h.noteElem _ _).noteElem _ _).setSubFlags (by omega) _ _ rfl).bump .si _).bump .di _

theorem cmpsElem16 (h : Reaches W s u) : Reaches W s u.cmpsElem16 :=
  ((((h.noteElem _ _).noteElem _ _).setSubFlags (by omega) _ _ rfl).bump .si _).bump .di _

theorem scasElem8 (h : Reaches W s u) : Reaches W s u.scasElem8 :=
  (((h.noteElem _ _).record _).setSubFlags (by omega) _ _ rfl).bump .di _

theorem scasElem16 (h : Reaches W s u) : Reaches W s u.scasElem16 :=
  (((h.noteElem _ _).record _).setSubFlags (by omega) _ _ rfl).bump .di _

theorem lodsElem8 (h : Reaches W s u) : Reaches W s u.lodsElem8 := ((h.noteElem _ _).setReg8 .al _).bump .si _

theorem lodsElem16 (h : Reaches W s u) : Reaches W s u.lodsElem16 := ((h.noteElem _ _).setReg16 .ax _).bump .si _

theorem stosElem8 (h : Reaches W s u) : Reaches W s u.stosElem8 := ((h.record _).putDst8 _).bump .di _

theorem stosElem16 (h : Reaches W s u) : Reaches W s u.stosElem16 := ((h.record _).putDst16 _).bump .di _

theorem insElem8 (h : Reaches W s u) : Reaches W s u.insElem8 := ((h.record _).putDst8 _).bump .di _

theorem insElem16 (h : Reaches W s u) : Reaches W s u.insElem16 := ((h.record _).putDst16 _).bump .di _

theorem outsElem8 (h : Reaches W s u) : Reaches W s u.outsElem8 :=
  (((h.noteElem _ _).record _).portWrite8 _ _).bump .si _

theorem outsElem16 (h : Reaches W s u) : Reaches W s u.outsElem16 :=
  (((h.noteElem _ _).record _).portWrite16 _ _).bump .si _

/-- A string instruction, where its element is made of updates (R361). -/
theorem stringStep {elem : State → State} (he : ∀ {v}, Reaches W s v → Reaches W s (elem v)) (h : Reaches W s u) (i : Instr)
    (stops : RepKind → Word → Bool) : Reaches W s (u.stringStep i elem stops) := by
  unfold State.stringStep
  split
  · exact (he h).advance i
  · split
    · exact (h.record _).advance i
    · have hx := (he (h.record (u.unset16 .cx))).setReg16 .cx ((elem (u.note16 .cx)).reg16 .cx - 1#16)
      simp only []
      split
      · exact hx.advance i
      · exact hx

end Reaches

end Sys2Proof.Machine

namespace Sys2Proof.Machine

/-- Every instruction answers a next state, and it is made of updates that load the segment registers of R35 only. -/
theorem exec_reaches (i : Instr) (s : State) : ∃ t, exec i s = .next t ∧ Reaches (segWrites i) s t := by
  have h := Reaches.refl (segWrites i) s
  cases i with
  | addEbGb | addGbEb | addAlIb | addEbIb | addEbIbAlias | orEbGb | orGbEb | orAlIb | orEbIb | orEbIbAlias
    | adcEbGb | adcGbEb | adcAlIb | adcEbIb | adcEbIbAlias | sbbEbGb | sbbGbEb | sbbAlIb | sbbEbIb | sbbEbIbAlias
    | andEbGb | andGbEb | andAlIb | andEbIb | andEbIbAlias | subEbGb | subGbEb | subAlIb | subEbIb | subEbIbAlias
    | xorEbGb | xorGbEb | xorAlIb | xorEbIb | xorEbIbAlias | cmpEbGb | cmpGbEb | cmpAlIb | cmpEbIb | cmpEbIbAlias =>
    exact ⟨_, rfl, (h.alu8 ..).advance _⟩
  | addEvGv | addGvEv | addAxIw | addEvIw | addEvIbs | orEvGv | orGvEv | orAxIw | orEvIw | orEvIbs | adcEvGv
    | adcGvEv | adcAxIw | adcEvIw | adcEvIbs | sbbEvGv | sbbGvEv | sbbAxIw | sbbEvIw | sbbEvIbs | andEvGv | andGvEv
    | andAxIw | andEvIw | andEvIbs | subEvGv | subGvEv | subAxIw | subEvIw | subEvIbs | xorEvGv | xorGvEv | xorAxIw
    | xorEvIw | xorEvIbs | cmpEvGv | cmpGvEv | cmpAxIw | cmpEvIw | cmpEvIbs => exact ⟨_, rfl, (h.alu16 ..).advance _⟩
  | testEbGb | testAlIb | testEbIb => exact ⟨_, rfl, (h.test8 ..).advance _⟩
  | testEvGv | testAxIw | testEvIw => exact ⟨_, rfl, (h.test16 ..).advance _⟩
  | rolEbIb | rolEb1 | rorEbIb | rorEb1 | rclEbIb | rclEb1 | rcrEbIb | rcrEb1 | shlEbIb | shlEb1 | shrEbIb | shrEb1
    | sarEbIb | sarEb1 => exact ⟨_, rfl, (h.shift8 ..).advance _⟩
  | rolEvIb | rolEv1 | rorEvIb | rorEv1 | rclEvIb | rclEv1 | rcrEvIb | rcrEv1 | shlEvIb | shlEv1 | shrEvIb | shrEv1
    | sarEvIb | sarEv1 => exact ⟨_, rfl, (h.shift16 ..).advance _⟩
  | rolEbCl | rorEbCl | rclEbCl | rcrEbCl | shlEbCl | shrEbCl | sarEbCl =>
    exact ⟨_, rfl, ((h.record _).shift8 ..).advance _⟩
  | rolEvCl | rorEvCl | rclEvCl | rcrEvCl | shlEvCl | shrEvCl | sarEvCl =>
    exact ⟨_, rfl, ((h.record _).shift16 ..).advance _⟩
  | incEb => exact ⟨_, rfl, (h.inc8 _).advance _⟩
  | incR16 | incEv => exact ⟨_, rfl, (h.inc16 _).advance _⟩
  | decEb => exact ⟨_, rfl, (h.dec8 _).advance _⟩
  | decR16 | decEv => exact ⟨_, rfl, (h.dec16 _).advance _⟩
  | negEb => exact ⟨_, rfl, (h.neg8 _).advance _⟩
  | negEv => exact ⟨_, rfl, (h.neg16 _).advance _⟩
  | notEb => exact ⟨_, rfl, (h.not8 _).advance _⟩
  | notEv => exact ⟨_, rfl, (h.not16 _).advance _⟩
  | mulEb => exact ⟨_, rfl, (h.mul8 _).advance _⟩
  | mulEv => exact ⟨_, rfl, (h.mul16 _).advance _⟩
  | imulEb => exact ⟨_, rfl, (h.imul8 _).advance _⟩
  | imulEv => exact ⟨_, rfl, (h.imul16 _).advance _⟩
  | imulGvEvIw | imulGvEvIbs => exact ⟨_, rfl, (h.imul3 ..).advance _⟩
  | divEb | idivEb => exact ⟨_, rfl, (h.fetchDiv8 _).divWrite8 _ _ _ _ _ rfl⟩
  | divEv | idivEv => exact ⟨_, rfl, (h.fetchDiv16 _).divWrite16 _ _ _ _ _ rfl⟩
  | aamIb b =>
    rcases eq_or_ne (s.aamdBase b) 0#8 with hb | hb
    · exact ⟨_, if_pos hb, h.enter _ _ rfl⟩
    · exact ⟨_, if_neg hb, (((h.record _).setReg16 .ax _).setArith rfl (aamdFlags_spec ..).2).advance _⟩
  | aadIb => exact ⟨_, rfl, (((h.record _).setReg16 .ax _).setArith rfl (aamdFlags_spec ..).2).advance _⟩
  | daa | das => exact ⟨_, rfl, (h.decimalAdjust _ _).advance _⟩
  | aaa | aas => exact ⟨_, rfl, (h.asciiAdjust _ _).advance _⟩
  | cbw | cwd => exact ⟨_, rfl, ((h.record _).setReg16 _ _).advance _⟩
  | movEbGb | movGbEb | movEbIb => exact ⟨_, rfl, (h.mov8 _ _).advance _⟩
  | movEvGv | movGvEv | movEvIw => exact ⟨_, rfl, (h.mov16 _ _).advance _⟩
  | movEwEs | movEwCs | movEwSs | movEwDs => exact ⟨_, rfl, (h.movFromSReg _ _).advance _⟩
  | movEsEw | movDsEw => exact ⟨_, rfl, (h.movToSReg _ rfl).advance _⟩
  | movSsEw => exact ⟨_, rfl, (h.movToSReg _ rfl).setShadow.advance _⟩
  | movAlOb => exact ⟨_, rfl, ((h.record _).setReg8 .al _).advance _⟩
  | movAxOw => exact ⟨_, rfl, ((h.record _).setReg16 .ax _).advance _⟩
  | movObAl => exact ⟨_, rfl, ((h.record _).writeMem8 _ _ _).advance _⟩
  | movOwAx => exact ⟨_, rfl, ((h.record _).writeMem16 _ _ _).advance _⟩
  | movR8Ib | inAlIb | lahf => exact ⟨_, rfl, (h.setReg8 _ _).advance _⟩
  | movR16Iw | inAxIb => exact ⟨_, rfl, (h.setReg16 _ _).advance _⟩
  | leaGvM => exact ⟨_, rfl, ((h.record _).setReg16 _ _).advance _⟩
  | lesGvMp | ldsGvMp => exact ⟨_, rfl, (h.loadFar _ _ rfl).advance _⟩
  | xchgEbGb => exact ⟨_, rfl, (h.xchg8 _ _).advance _⟩
  | xchgEvGv | xchgR16Ax => exact ⟨_, rfl, (h.xchg16 _ _).advance _⟩
  | xlat => exact ⟨_, rfl, h.translate.advance _⟩
  | inAlDx => exact ⟨_, rfl, ((h.record _).setReg8 .al _).advance _⟩
  | inAxDx => exact ⟨_, rfl, ((h.record _).setReg16 .ax _).advance _⟩
  | outIbAl => exact ⟨_, rfl, ((h.record _).portWrite8 _ _).advance _⟩
  | outIbAx => exact ⟨_, rfl, ((h.record _).portWrite16 _ _).advance _⟩
  | outDxAl => exact ⟨_, rfl, (((h.record _).record _).portWrite8 _ _).advance _⟩
  | outDxAx => exact ⟨_, rfl, (((h.record _).record _).portWrite16 _ _).advance _⟩
  | pushR16 => exact ⟨_, rfl, (h.pushGeneral _).advance _⟩
  | pushIw | pushIbs | pushEs | pushCs | pushSs | pushDs | pushf => exact ⟨_, rfl, (h.push _).advance _⟩
  | pushEv => exact ⟨_, rfl, ((h.fetch16 _).push _).advance _⟩
  | popR16 => exact ⟨_, rfl, (h.popReg _).advance _⟩
  | popEv => exact ⟨_, rfl, (h.popRm _).advance _⟩
  | popEs | popDs => exact ⟨_, rfl, (h.popSReg rfl).advance _⟩
  | popSs => exact ⟨_, rfl, (h.popSReg rfl).setShadow.advance _⟩
  | popf => exact ⟨_, rfl, (h.drop.writeFlags _).advance _⟩
  | pusha => exact ⟨_, rfl, h.pushAll.advance _⟩
  | popa => exact ⟨_, rfl, h.popAll.advance _⟩
  | sahf => exact ⟨_, rfl, ((h.record _).setArith rfl (sahfFlags_kept _ _)).advance _⟩
  | enterIwIb => exact ⟨_, rfl, (h.enterFrame _ _).advance _⟩
  | leave => exact ⟨_, rfl, h.leaveFrame.advance _⟩
  | joRel8 | jnoRel8 | jbRel8 | jnbRel8 | jzRel8 | jnzRel8 | jbeRel8 | jaRel8 | jsRel8 | jnsRel8 | jpRel8 | jnpRel8
    | jlRel8 | jgeRel8 | jleRel8 | jgRel8 => exact ⟨_, rfl, h.branch _ _ _⟩
  | jcxzRel8 => exact ⟨_, rfl, (h.record _).branch _ _ _⟩
  | loopnzRel8 | loopzRel8 | loopRel8 => exact ⟨_, rfl, h.loop _ _ _⟩
  | jmpRel8 | jmpRel16 => exact ⟨_, rfl, h.setIp _⟩
  | jmpEv => exact ⟨_, rfl, (h.fetch16 _).setIp _⟩
  | jmpAp => exact ⟨_, rfl, h.setCsIp _ _ rfl⟩
  | jmpMp => exact ⟨_, rfl, (h.noteFar _).setCsIp _ _ rfl⟩
  | callRel16 => exact ⟨_, rfl, (h.push _).setIp _⟩
  | callEv => exact ⟨_, rfl, ((h.fetch16 _).push _).setIp _⟩
  | callAp => exact ⟨_, rfl, h.callFar _ _ _ rfl⟩
  | callMp => exact ⟨_, rfl, (h.noteFar _).callFar _ _ _ rfl⟩
  | ret => exact ⟨_, rfl, h.drop.setIp _⟩
  | retIw => exact ⟨_, rfl, (h.drop.setReg16 .sp _).setIp _⟩
  | retf => exact ⟨_, rfl, h.drop.drop.setCsIp _ _ rfl⟩
  | retfIw => exact ⟨_, rfl, (h.drop.drop.setReg16 .sp _).setCsIp _ _ rfl⟩
  | iret => exact ⟨_, rfl, h.leaveInterrupt rfl⟩
  | intIb | int3 => exact ⟨_, rfl, h.enter _ _ rfl⟩
  | into =>
    refine ⟨_, rfl, ?_⟩
    split
    · exact h.enter _ _ rfl
    · exact h.advance _
  | boundGvMa g m =>
    rcases Bool.eq_false_or_eq_true (boundExceeded (s.reg16 g) (s.farOff m) (s.farSel m)) with hb | hb
    · exact ⟨_, if_pos hb, ((h.noteFar m).record _).enter _ _ rfl⟩
    · exact ⟨_, if_neg (by simp [hb]), ((h.noteFar m).record _).advance _⟩
  | movsb => exact ⟨_, rfl, h.stringStep (elem := State.movsElem8) (fun hv => hv.movsElem8) _ _⟩
  | movsw => exact ⟨_, rfl, h.stringStep (elem := State.movsElem16) (fun hv => hv.movsElem16) _ _⟩
  | cmpsb => exact ⟨_, rfl, h.stringStep (elem := State.cmpsElem8) (fun hv => hv.cmpsElem8) _ _⟩
  | cmpsw => exact ⟨_, rfl, h.stringStep (elem := State.cmpsElem16) (fun hv => hv.cmpsElem16) _ _⟩
  | scasb => exact ⟨_, rfl, h.stringStep (elem := State.scasElem8) (fun hv => hv.scasElem8) _ _⟩
  | scasw => exact ⟨_, rfl, h.stringStep (elem := State.scasElem16) (fun hv => hv.scasElem16) _ _⟩
  | lodsb => exact ⟨_, rfl, h.stringStep (elem := State.lodsElem8) (fun hv => hv.lodsElem8) _ _⟩
  | lodsw => exact ⟨_, rfl, h.stringStep (elem := State.lodsElem16) (fun hv => hv.lodsElem16) _ _⟩
  | stosb => exact ⟨_, rfl, h.stringStep (elem := State.stosElem8) (fun hv => hv.stosElem8) _ _⟩
  | stosw => exact ⟨_, rfl, h.stringStep (elem := State.stosElem16) (fun hv => hv.stosElem16) _ _⟩
  | insb => exact ⟨_, rfl, h.stringStep (elem := State.insElem8) (fun hv => hv.insElem8) _ _⟩
  | insw => exact ⟨_, rfl, h.stringStep (elem := State.insElem16) (fun hv => hv.insElem16) _ _⟩
  | outsb => exact ⟨_, rfl, h.stringStep (elem := State.outsElem8) (fun hv => hv.outsElem8) _ _⟩
  | outsw => exact ⟨_, rfl, h.stringStep (elem := State.outsElem16) (fun hv => hv.outsElem16) _ _⟩
  | esc | nop | wait => exact ⟨_, rfl, h.advance _⟩
  | pfxEs | pfxCs | pfxSs | pfxDs | pfxLock | pfxRepne | pfxRep => exact ⟨_, rfl, h.setCur _⟩
  | hlt => exact ⟨_, rfl, (h.setHalted true).advance _⟩
  | cmc | clc | stc | cli | cld | std => exact ⟨_, rfl, (h.setFlag _ _).advance _⟩
  | sti => exact ⟨_, rfl, (h.setFlag _ _).setShadow.advance _⟩

end Sys2Proof.Machine

namespace Sys2Proof.Machine

/-! ## What a step is made of -/

/-- What every part of a scheduler step keeps: the updates of instructions and interrupt entries, and what the step does
around them (R470-R478, R620). -/
structure StepKeeps (P : State → Prop) : Prop where
  update : ∀ {W : SReg → Bool} {a b : State}, Update W a b → P a → P b
  gapStep : ∀ {a : State} (n : Nat), P a → P (a.gapStep n)
  traced : ∀ {a : State} (b : State) (i : Instr), P a → P (a.traced b i)
  started : ∀ {a : State}, P a → P (started a)
  acknowledge : ∀ {a : State} (k : Nat), P a → P (a.acknowledge k)
  devices : ∀ {a : State} (n : Nat), P a → P (a.advanceDevices n)

namespace StepKeeps

variable {P : State → Prop} (hP : StepKeeps P)

include hP

theorem reaches {W : SReg → Bool} {s u : State} (h : Reaches W s u) (hs : P s) : P u := h.keeps hP.update hs

theorem exec {i : Instr} {s t : State} (h : exec i s = .next t) (hs : P s) : P t := by
  obtain ⟨u, hu, hr⟩ := exec_reaches i s
  obtain rfl : u = t := by rw [hu] at h; injection h
  exact hP.reaches hr hs

theorem enter {s : State} (n : Byte) (ret : Word) (hs : P s) : P (s.enter n ret) :=
  hP.reaches ((Reaches.refl (fun _ => true) s).enter n ret rfl) hs

theorem executeN (n : Nat) {s t : State} {c : Option Nat} (h : executeN n s = .next (t, c)) (hs : P s) : P t := by
  induction n generalizing s with
  | zero => simp [Machine.executeN] at h
  | succ n ih =>
    rw [Machine.executeN] at h
    have hc (len : Nat) : P (s.noteCode len) := hP.update (W := fun _ => true) (.record _ _) hs
    split at h
    · obtain ⟨rfl, -⟩ : _ ∧ _ := by simpa using h
      exact hP.gapStep _ (hc _)
    · split at h
      · cases h
      · cases h
      · rename_i hx
        have ht := hP.exec hx (hc _)
        split at h
        · exact ih h ht
        · obtain ⟨rfl, -⟩ : _ ∧ _ := by simpa using h
          exact hP.traced _ _ ht

theorem singleStep {s : State} (tf : Bool) (c : Option Nat) (hs : P s) : P (s.singleStep tf c).1 := by
  unfold State.singleStep
  split
  · exact hP.enter _ _ hs
  · exact hs

theorem runInstr {s t : State} {c : Option Nat} (h : s.runInstr = .next (t, c)) (hs : P s) : P t := by
  unfold State.runInstr at h
  split at h
  · cases h
  · cases h
  · rename_i hx
    injection h with h
    have ht : P (t, c).1 := h ▸ hP.singleStep _ _ (hP.executeN 65536 hx (hP.started hs))
    exact ht

theorem stepNoInterrupt {s t : State} {c : Option Nat} (h : s.stepNoInterrupt = .next (t, c)) (hs : P s) : P t := by
  unfold State.stepNoInterrupt at h
  split at h
  · split at h
    · exact hP.runInstr h (hP.update (W := fun _ => true) (.setHalted _ _) hs)
    · obtain ⟨rfl, -⟩ : _ ∧ _ := by simpa using h
      exact hs
  · exact hP.runInstr h hs

theorem cpuStep {s t : State} {c : Option Nat} (h : s.cpuStep = .next (t, c)) (hs : P s) : P t := by
  unfold State.cpuStep at h
  split at h
  · split at h
    · obtain ⟨rfl, -⟩ : _ ∧ _ := by simpa using h
      exact hP.enter _ _ (hP.update (W := fun _ => true) (.setHalted _ _) (hP.acknowledge _ hs))
    · exact hP.stepNoInterrupt h hs
  · exact hP.stepNoInterrupt h hs

/-- A step that answers a next state keeps what each of its parts keeps, and its state is the end of a step. -/
theorem step {s t : State} (h : step s = .next t) (hs : P s) : P t ∧ t = t.endStep := by
  unfold Machine.step State.schedStep at h
  split at h
  · cases h
  · cases h
  · rename_i hx
    obtain rfl : _ = t := by simpa using h
    exact ⟨hP.update (W := fun _ => true) (.setCur _ _) (hP.devices _ (hP.cpuStep hx hs)), rfl⟩

end StepKeeps

/-! ## Which instructions write each segment register (O48) -/

/-- An update leaves a segment register that it may not load. -/
theorem Update.sreg {W : SReg → Bool} {a b : State} (h : Update W a b) {r : SReg} (hr : W r = false) :
    b.sreg r = a.sreg r := by
  cases h with
  | setSReg q v hq =>
    have : r ≠ q := fun e => by simp [e, hq] at hr
    simp [this]
  | writeFlags => rfl
  | _ => simp

/-- An instruction leaves the segment registers that it does not write. -/
theorem exec_sreg {i : Instr} {s t : State} (h : exec i s = .next t) {r : SReg} (hr : t.sreg r ≠ s.sreg r) :
    segWrites i r = true := by
  obtain ⟨u, hu, hreach⟩ := exec_reaches i s
  obtain rfl : u = t := by rw [hu] at h; injection h
  by_contra hw
  have hw : segWrites i r = false := by simpa using hw
  exact hr (hreach.keeps (P := fun u => u.sreg r = s.sreg r) (fun hab ha => (hab.sreg hw).trans ha) rfl)

/-- Settles O48: an instruction is made of updates, and only the listed ones contain a load of a segment register. -/
theorem segmentWriters : Obligations.SegmentWriters := by
  unfold Obligations.SegmentWriters
  intro i s t h
  exact ⟨exec_sreg h (r := .cs), exec_sreg h (r := .es), exec_sreg h (r := .ss), exec_sreg h (r := .ds)⟩

/-! ## The diagnostic log and the fault record only grow (O47) -/

/-- The logs of the first state are prefixes of those of the second (R52, R53). -/
def LogsGrow (s t : State) : Prop := s.diag <+: t.diag ∧ s.faults <+: t.faults

theorem LogsGrow.of_eq {s a b : State} (h : LogsGrow s a) (hd : b.diag = a.diag) (hf : b.faults = a.faults) :
    LogsGrow s b := by
  rw [LogsGrow, hd, hf]
  exact h

theorem LogsGrow.update {s a b : State} {W : SReg → Bool} (hab : Update W a b) (h : LogsGrow s a) : LogsGrow s b := by
  cases hab with
  | record l => exact ⟨h.1, h.2.trans (List.prefix_append _ _)⟩
  | writeFlags => exact h
  | _ => exact h.of_eq (by simp) (by simp)

theorem LogsGrow.stepKeeps (s : State) : StepKeeps (LogsGrow s) where
  update := LogsGrow.update
  gapStep _ h := ⟨h.1.trans (List.prefix_append _ _), h.2⟩
  traced b i h := by
    unfold State.traced
    split <;> exact h
  started h := h
  acknowledge _ h := h
  devices _ h := h

/-- Settles O47: every part of a step only appends to the two logs. -/
theorem logsOnlyGrow : Obligations.LogsOnlyGrow := by
  unfold Obligations.LogsOnlyGrow
  intro s t h
  exact ((LogsGrow.stepKeeps s).step h ⟨List.prefix_refl _, List.prefix_refl _⟩).1

end Sys2Proof.Machine

namespace Sys2Proof.Machine

/-! ## The constraints on the parameters, one by one -/

/-- The constraints on the OPEN parameters that the invariant rests on (R10, R540, R560, R622). -/
structure OpenCfg.Bounds (c : Cfg) (o : OpenCfg) : Prop where
  timers : o.timers.length = c.timerCount
  visibleDots : 0 < o.visibleDots
  lineDots : o.visibleDots < o.lineDots
  visibleLines : 0 < o.visibleLines
  totalLines : o.visibleLines < o.totalLines
  timerClock : 0 < o.timerClock.q
  dotsPerCycle : 0 < o.dotsPerCycle.q
  apuTicksPerCycle : 0 < o.apuTicksPerCycle.q

theorem OpenCfg.bounds {c : Cfg} {o : OpenCfg} (h : o.wf c = true) : OpenCfg.Bounds c o := by
  simp only [OpenCfg.wf, Ratio.wf, Bool.and_eq_true, decide_eq_true_eq] at h
  constructor <;> simp only [h]

theorem Cfg.fixedOne_of_wf {c : Cfg} (h : c.wf = true) : c.flagsFixedOne &&& flagsWmask = 0#16 := by
  simp only [Cfg.wf, Bool.and_eq_true, decide_eq_true_eq] at h
  simp only [h]

theorem Cfg.ramSize_pos {c : Cfg} (h : c.wf = true) : 0 < c.ramSize := by
  have hany : (List.range 17).any (fun k => c.ramSize == 2 ^ k) = true := by
    simp only [Cfg.wf, Bool.and_eq_true] at h
    simp only [h]
  obtain ⟨k, -, hk⟩ := List.any_eq_true.mp hany
  rw [beq_iff_eq.mp hk]
  positivity

/-! ## Words under a mask -/

theorem and_mask_of_and {w : Nat} (a b m : BitVec w) (h : a &&& m = a) : (a &&& b) &&& m = a &&& b := by
  rw [BitVec.and_assoc, BitVec.and_comm b m, ← BitVec.and_assoc, h]

theorem or_mask_of_and {w : Nat} {a b m : BitVec w} (ha : a &&& m = a) (hb : b &&& m = b) : (a ||| b) &&& m = a ||| b := by
  rw [BitVec.and_comm, BitVec.and_or_distrib_left, BitVec.and_comm m, BitVec.and_comm m, ha, hb]

theorem sourceBit_mask (o : OpenCfg) (k : Nat) : sourceBit o k &&& icMask o = sourceBit o k := by
  rw [sourceBit, BitVec.and_assoc, BitVec.and_self]

/-- A change of flags leaves the reserved bits of FLAGS (R39). -/
theorem KeptFlags.reserved {fl fl' : Word} (h : KeptFlags allFlags fl fl') : fl' &&& ~~~flagsWmask = fl &&& ~~~flagsWmask := by
  have hbit : ∀ n < 16, flagsWmask.getLsbD n = false → ∀ f ∈ allFlags, flagBit f ≠ n := by decide
  apply BitVec.eq_of_getLsbD_eq
  intro n hn
  cases hm : flagsWmask.getLsbD n with
  | true => simp [hm]
  | false => simp [hm, h n (hbit n hn hm)]

/-- `WriteFlags` writes the fixed bits at the reserved places (R39). -/
theorem writeFlagsWord_reserved {c : Cfg} (h : c.wf = true) (v : Word) :
    writeFlagsWord c v &&& ~~~flagsWmask = c.flagsFixedOne := by
  have h1 := Cfg.fixedOne_of_wf h
  apply BitVec.eq_of_getLsbD_eq
  intro n hn
  have hb : (c.flagsFixedOne.getLsbD n && flagsWmask.getLsbD n) = false := by
    rw [← BitVec.getLsbD_and, h1, BitVec.getLsbD_zero]
  cases hm : flagsWmask.getLsbD n <;> simp_all [writeFlagsWord]

/-! ## The phases of the APU's channels (R580) -/

/-- The phases of the channels, place by place. -/
theorem phases_iff {us : List ChannelUnit} {cs : List Channel} :
    (∀ p ∈ us.zip cs, phaseOk p.1.kind p.2)
      ↔ ∀ (k : Nat) (u : ChannelUnit) (c : Channel), us[k]? = some u → cs[k]? = some c → phaseOk u.kind c := by
  simp only [List.mem_iff_getElem?, List.getElem?_zip_eq_some]
  exact ⟨fun h k u c hu hc => h (u, c) ⟨k, hu, hc⟩, fun h p ⟨k, hu, hc⟩ => h k p.1 p.2 hu hc⟩

theorem phaseOk_of_phase_eq {k : ChannelKind} {c d : Channel} (hd : d.phase = c.phase) (h : phaseOk k c) : phaseOk k d := by
  cases k <;> simp_all [phaseOk]

theorem advancePhase_phaseOk (k : ChannelKind) (c : Channel) : phaseOk k (advancePhase k c) := by
  cases k with
  | square =>
    have h : (c.phase.toNat + 1) % 8 < 8 := Nat.mod_lt _ (by decide)
    simp only [phaseOk, advancePhase, BitVec.toNat_ofNat]
    omega
  | noise => trivial
  | pcm =>
    have h := c.data.isLt
    simp only [phaseOk, advancePhase, BitVec.toNat_setWidth]
    omega

theorem envelopeTick_phase (e : EnvelopeStep) (c : Channel) : (envelopeTick e c).phase = c.phase := by
  unfold envelopeTick
  split
  · rfl
  · split
    · rfl
    · split <;> rfl

theorem channelTick_phaseOk (e : EnvelopeStep) {k : ChannelKind} {c : Channel} (h : phaseOk k c) :
    phaseOk k (channelTick e k c) := by
  unfold channelTick
  split
  · exact h
  · apply phaseOk_of_phase_eq (envelopeTick_phase e _)
    split
    · exact advancePhase_phaseOk k _
    · exact phaseOk_of_phase_eq rfl h

theorem restartPhase_phaseOk (o : OpenCfg) (k : ChannelKind) {c : Channel} (h : c.phase = restartPhase o k) : phaseOk k c := by
  cases k <;> simp [phaseOk, h, restartPhase]

/-- A register write leaves the phase or restarts it (R584). -/
theorem channelWrite_phaseOk (o : OpenCfg) {k : ChannelKind} {c : Channel} (r : Nat) (v : Byte) (h : phaseOk k c) :
    phaseOk k (channelWrite o k c r v) := by
  unfold channelWrite
  split
  case h_5 =>
    split
    · exact restartPhase_phaseOk o k rfl
    · exact phaseOk_of_phase_eq rfl h
  all_goals exact phaseOk_of_phase_eq rfl h

theorem channelTicks_phases (e : EnvelopeStep) {us : List ChannelUnit} {cs : List Channel}
    (h : ∀ p ∈ us.zip cs, phaseOk p.1.kind p.2) : ∀ p ∈ us.zip (channelTicks e us cs), phaseOk p.1.kind p.2 := by
  rw [phases_iff] at h ⊢
  intro k u c hu hc
  obtain ⟨d, hd⟩ : ∃ d, cs[k]? = some d := by
    have hk : k < cs.length := by
      rw [← channelTicks_length e us cs]
      exact (List.getElem?_eq_some_iff.mp hc).1
    exact ⟨cs[k], List.getElem?_eq_getElem hk⟩
  obtain rfl : channelTick e u.kind d = c := by
    rw [channelTicks_get hu hd] at hc
    injection hc
  exact channelTick_phaseOk e (h k u d hu hd)

/-! ## The PPU's position and mode (R561-R565) -/

/-- A PPU that differs in its buffers and its control only. -/
theorem PpuOk.of_eq {o : OpenCfg} {p q : Ppu} (h : PpuOk o p) (hl : q.line = p.line) (hd : q.dot = p.dot)
    (hm : q.mode = p.mode) : PpuOk o q := by
  rw [PpuOk, hl, hd, hm]
  exact h

/-- The end of a line, from its last dot (R562). -/
theorem ppuNextLine_ok {s : State} {c : Cfg} (hb : OpenCfg.Bounds c s.ext) (hl : s.ppu.line < s.ext.totalLines)
    (hm : s.ext.visibleLines ≤ s.ppu.line → s.ppu.mode = .vblank) : PpuOk s.ext s.ppuNextLine.ppu := by
  obtain ⟨-, hvd, hld, hvl, htl, -⟩ := hb
  unfold State.ppuNextLine
  simp only []
  split_ifs with h1 h2 h3
  · simp only [PpuOk, State.raiseSource, State.setIc, State.setRaised, State.setPpu]
    grind
  all_goals
    simp only [PpuOk, State.setPpu]
    grind

/-- The first part of a dot (R562): the dot counter goes on, and the row's last visible dot raises HBlank. -/
def State.dotStart (s : State) : State :=
  let s1 := s.setPpu { s.ppu with dot := s.ppu.dot + 1 }
  if s1.ppu.dot = s.ext.visibleDots ∧ s1.ppu.line < s.ext.visibleLines then
    (s1.setPpu { s1.ppu with mode := .hblank }).raiseSource s.ext.hblankSrc
  else s1

theorem ppuDot_eq (s : State) : s.ppuDot =
    if s.dotStart.ppu.dot = s.ext.lineDots then
      (if s.dotStart.ppu.line < s.ext.visibleLines then s.dotStart.composeLine else s.dotStart).ppuNextLine
    else s.dotStart := rfl

theorem dotStart_ext (s : State) : s.dotStart.ext = s.ext := by
  unfold State.dotStart
  simp only []
  split <;> rfl

theorem dotStart_ppu (s : State) : s.dotStart.ppu = { s.ppu with dot := s.ppu.dot + 1, mode :=
    if s.ppu.dot + 1 = s.ext.visibleDots ∧ s.ppu.line < s.ext.visibleLines then .hblank else s.ppu.mode } := by
  by_cases h : s.ppu.dot + 1 = s.ext.visibleDots ∧ s.ppu.line < s.ext.visibleLines
  · simp [State.dotStart, State.setPpu, State.raiseSource, State.setIc, State.setRaised, h]
  · simp [State.dotStart, State.setPpu, h]

/-- A dot keeps the counters in range and the mode that of the position (R561-R565). -/
theorem ppuDot_ok {s : State} {c : Cfg} (hb : OpenCfg.Bounds c s.ext) (h : PpuOk s.ext s.ppu) : PpuOk s.ext s.ppuDot.ppu := by
  obtain ⟨hl, hd, hm⟩ := h
  have hvd := hb.visibleDots
  have hld := hb.lineDots
  have hp := dotStart_ppu s
  have he := dotStart_ext s
  rw [ppuDot_eq]
  split
  next hend =>
    have hline : s.dotStart.ppu.line < s.ext.totalLines := by simpa [hp] using hl
    have hmode : s.ext.visibleLines ≤ s.dotStart.ppu.line → s.dotStart.ppu.mode = .vblank := by
      simp only [hp, hm]
      grind
    rw [← he] at hb hline hmode ⊢
    split
    · exact ppuNextLine_ok (s := s.dotStart.composeLine) hb hline hmode
    · exact ppuNextLine_ok hb hline hmode
  next hend =>
    simp only [hp] at hend
    simp only [PpuOk, hp, hm]
    grind

end Sys2Proof.Machine

namespace Sys2Proof.Machine

/-- The invariant, but for the decode state of a step under way (R54). -/
def Between (s : State) : Prop := Inv s.endStep

namespace Between

variable {s : State}

theorem of_inv (h : Inv s) : Between s := by
  have hs : s.endStep = s := by
    have := h.cur
    cases s
    simp_all [State.endStep]
  rwa [Between, hs]

/-! ## Memory -/

theorem writePlace (h : Between s) (p : Place) (b : Byte) (hram : ∀ i, p = .ram i → i < s.cfg.ramSize)
    (hsave : ∀ i, p = .save i → i < s.save.size) : Between (s.writePlace p b) := by
  cases p with
  | ram i => exact { h with ram := wf_put b (hram i rfl) h.ram }
  | save i => exact { h with save := wf_put b (hsave i rfl) h.save }
  | rom o => exact h
  | openBus => exact h

end Between

theorem romPlace_ne_ram (s : State) (raw i : Nat) : s.romPlace raw ≠ .ram i := by
  unfold State.romPlace
  simp only []
  split <;> simp

theorem romPlace_ne_save (s : State) (raw i : Nat) : s.romPlace raw ≠ .save i := by
  unfold State.romPlace
  simp only []
  split <;> simp

/-- An address names a RAM byte within the RAM (R112). -/
theorem locate_ram_lt {s : State} (hs : 0 < s.cfg.ramSize) {a : Phys} {i : Nat} (h : s.locate a = .ram i) :
    i < s.cfg.ramSize := by
  unfold State.locate at h
  split at h
  · injection h with h
    exact h ▸ Nat.mod_lt _ hs
  · split at h <;> cases h
  · exact absurd h (romPlace_ne_ram _ _ _)
  · exact absurd h (romPlace_ne_ram _ _ _)
  · exact absurd h (romPlace_ne_ram _ _ _)
  · cases h

/-- An address names a save byte within the save memory (R116). -/
theorem locate_save_lt {s : State} {a : Phys} {i : Nat} (h : s.locate a = .save i) : i < s.save.size := by
  unfold State.locate at h
  split at h
  · cases h
  · split at h
    · cases h
    · injection h with h
      exact h ▸ Nat.mod_lt _ (by omega)
  · exact absurd h (romPlace_ne_save _ _ _)
  · exact absurd h (romPlace_ne_save _ _ _)
  · exact absurd h (romPlace_ne_save _ _ _)
  · cases h

namespace Between

variable {s : State}

theorem busWrite8 (h : Between s) (a : Phys) (b : Byte) : Between (s.busWrite8 a b) :=
  h.writePlace _ b (fun _ hi => locate_ram_lt (Cfg.ramSize_pos h.cfg) hi) (fun _ hi => locate_save_lt hi)

/-! ## Registers -/

theorem setReg16 (h : Between s) (r : Reg16) (v : Word) : Between (s.setReg16 r v) :=
  { h with
    marks := fun q hq => by
      have hm := h.marks q hq
      simp only [State.endStep, State.setReg16, regTable_get_set] at hm ⊢
      split
      · rfl
      · exact hm }

theorem setReg8 (h : Between s) (r : Reg8) (v : Byte) : Between (s.setReg8 r v) :=
  { h with
    marks := fun q hq => by
      have hm := h.marks q hq
      have hne : q ≠ Reg8.parent r := by
        rintro rfl
        cases r <;> simp [Reg8.parent, Reg16.halves] at hq
      simpa [State.endStep, State.setReg8, hne] using hm }

/-! ## The devices' registers -/

theorem setIc (h : Between s) {c : Ic} (he : c.enable &&& icMask s.ext = c.enable)
    (hp : c.pending &&& icMask s.ext = c.pending) : Between (s.setIc c) :=
  { h with enable := he, pending := hp }

theorem acknowledge (h : Between s) (k : Nat) : Between (s.acknowledge k) :=
  h.setIc h.enable (and_mask_of_and _ _ _ h.pending)

theorem raiseSource (h : Between s) (k : Nat) : Between (s.raiseSource k) :=
  { h with
    pending := or_mask_of_and h.pending (sourceBit_mask s.ext k)
    raised := or_mask_of_and h.raised (sourceBit_mask s.ext k) }

theorem setTimer (h : Between s) (k : Nat) (t : Timer) : Between (s.setTimer k t) :=
  { h with timers := (List.length_set ..).trans h.timers }

theorem setPpu (h : Between s) {p : Ppu} (hp : PpuOk s.ext p) : Between (s.setPpu p) := { h with ppu := hp }

theorem setChannel (h : Between s) (k : Nat) {c : Channel}
    (hc : k < s.apu.length → phaseOk (channelKind s.ext k) c) : Between (s.setChannel k c) :=
  { h with
    apu := (List.length_set ..).trans h.apu
    phases := by
      rw [phases_iff]
      intro j u d hu hd
      have hd : (s.apu.set k c)[j]? = some d := hd
      rcases eq_or_ne k j with rfl | hkj
      · have hk : k < s.apu.length := by
          have := (List.getElem?_eq_some_iff.mp hd).1
          simpa using this
        obtain rfl : c = d := by
          rw [List.getElem?_set_self hk] at hd
          injection hd
        have hu : s.ext.channels[k]? = some u := hu
        simpa [channelKind, hu] using hc hk
      · rw [List.getElem?_set_ne hkj] at hd
        exact phases_iff.mp h.phases j u d hu hd }

theorem channel_phaseOk (h : Between s) {k : Nat} (hk : k < s.apu.length) : phaseOk (channelKind s.ext k) (s.channel k) := by
  have hl : s.apu.length = s.ext.channels.length := h.apu
  have hu := List.getElem?_eq_getElem (hl ▸ hk : k < s.ext.channels.length)
  have hc := List.getElem?_eq_getElem hk
  have := phases_iff.mp h.phases k _ _ hu hc
  simpa [channelKind, State.channel, hu, hc] using this

/-- A port write keeps the invariant (R131). -/
theorem portWrite8 (h : Between s) (p : Word) (v : Byte) : Between (s.portWrite8 p v) := by
  unfold State.portWrite8
  split
  case h_1 => exact h.setIc (by rw [BitVec.and_assoc, BitVec.and_self]) h.pending
  case h_3 => exact h.setIc h.enable (and_mask_of_and _ _ _ h.pending)
  case h_4 => exact h.setTimer _ _
  case h_5 => exact h.setPpu (h.ppu.of_eq rfl rfl rfl)
  case h_7 => exact h.setChannel _ fun hk => channelWrite_phaseOk _ _ _ (h.channel_phaseOk hk)
  all_goals exact { h with }

/-- Every update by an instruction keeps the invariant. -/
theorem update {W : SReg → Bool} {a b : State} (hab : Update W a b) (h : Between a) : Between b := by
  cases hab with
  | setReg16 r v => exact h.setReg16 r v
  | setReg8 r v => exact h.setReg8 r v
  | setFlags fl hf => exact { h with flags := hf.reserved.trans h.flags }
  | writeFlags v => exact { h with flags := writeFlagsWord_reserved h.cfg v }
  | busWrite8 p b => exact h.busWrite8 p b
  | portWrite8 p v => exact h.portWrite8 p v
  | setSReg r v => cases r <;> exact { h with }
  | setShadow =>
    unfold State.setShadow
    split
    next => exact h
    next hs => exact { h with shadow := fun hn => absurd hn hs }
  | record | setIp | setHalted | setCur => exact { h with }

/-! ## The advance of the devices -/

end Between

/-- The invariant holds with every PPU that is as R561 says in place of the state's own. -/
def ButPpu (s : State) : Prop := ∀ p, PpuOk s.ext p → Between (s.setPpu p)

namespace ButPpu

variable {s : State}

theorem of_between (h : Between s) : ButPpu s := fun _ hp => h.setPpu hp

theorem between (h : ButPpu s) (hp : PpuOk s.ext s.ppu) : Between s := h s.ppu hp

theorem setPpu (h : ButPpu s) (q : Ppu) : ButPpu (s.setPpu q) := h

theorem raiseSource (h : ButPpu s) (k : Nat) : ButPpu (s.raiseSource k) := fun p hp => (h p hp).raiseSource k

theorem dotStart (h : ButPpu s) : ButPpu s.dotStart := by
  unfold State.dotStart
  simp only []
  split
  · exact ((h.setPpu _).setPpu _).raiseSource _
  · exact h.setPpu _

theorem ppuNextLine (h : ButPpu s) : ButPpu s.ppuNextLine := by
  unfold State.ppuNextLine
  simp only []
  split_ifs
  · exact ((h.setPpu _).setPpu _).raiseSource _
  · exact (h.setPpu _).setPpu _
  · exact (h.setPpu _).setPpu _
  · exact h.setPpu _

theorem ppuDot (h : ButPpu s) : ButPpu s.ppuDot := by
  rw [ppuDot_eq]
  split_ifs
  · exact (h.dotStart.setPpu _).ppuNextLine
  · exact h.dotStart.ppuNextLine
  · exact h.dotStart

end ButPpu

theorem DevicesOnly.ext_eq {s t : State} (h : DevicesOnly s t) : t.ext = s.ext := by rw [h]; rfl

namespace Between

variable {s : State}

/-! ## The advance of the devices -/

theorem ppuDot (h : Between s) : Between s.ppuDot :=
  (ButPpu.of_between h).ppuDot.between
    ((devicesOnly_ppuDot s).ext_eq ▸ ppuDot_ok (OpenCfg.bounds (c := s.cfg) h.ext) h.ppu)

theorem apuTick (h : Between s) : Between s.apuTick :=
  { h with
    apu := (channelTicks_length ..).trans h.apu
    phases := channelTicks_phases _ h.phases }

theorem timerTick (h : Between s) (k : Nat) (u : TimerUnit) : Between (s.timerTick k u) := by
  unfold State.timerTick
  simp only []
  split
  · exact (h.setTimer _ _).raiseSource _
  · exact h.setTimer _ _

theorem timerTicksFrom (h : Between s) (k : Nat) (us : List TimerUnit) : Between (s.timerTicksFrom k us) := by
  induction us generalizing s k with
  | nil => exact h
  | cons u us ih => exact ih (h.timerTick k u) (k + 1)

theorem ppuDots (h : Between s) (n : Nat) : Between (s.ppuDots n) := by
  induction n generalizing s with
  | zero => exact h
  | succ n ih => exact ih h.ppuDot

theorem apuTicks (h : Between s) (n : Nat) : Between (s.apuTicks n) := by
  induction n generalizing s with
  | zero => exact h
  | succ n ih => exact ih h.apuTick

theorem timerTicks (h : Between s) (n : Nat) : Between (s.timerTicks n) := by
  induction n generalizing s with
  | zero => exact h
  | succ n ih => exact ih (h.timerTicksFrom 0 _)

end Between

theorem devicesOnly_refl (s : State) : DevicesOnly s s := rfl

theorem devicesOnly_timerTicksFrom (s : State) (k : Nat) (us : List TimerUnit) : DevicesOnly s (s.timerTicksFrom k us) := by
  induction us generalizing s k with
  | nil => exact devicesOnly_refl s
  | cons u us ih => exact (devicesOnly_timerTick s k u).trans (ih _ _)

theorem devicesOnly_ppuDots (s : State) (n : Nat) : DevicesOnly s (s.ppuDots n) := by
  induction n generalizing s with
  | zero => exact devicesOnly_refl s
  | succ n ih => exact (devicesOnly_ppuDot s).trans (ih _)

theorem devicesOnly_apuTicks (s : State) (n : Nat) : DevicesOnly s (s.apuTicks n) := by
  induction n generalizing s with
  | zero => exact devicesOnly_refl s
  | succ n ih => exact (devicesOnly_apuTick s).trans (ih _)

theorem devicesOnly_timerTicks (s : State) (n : Nat) : DevicesOnly s (s.timerTicks n) := by
  induction n generalizing s with
  | zero => exact devicesOnly_refl s
  | succ n ih => exact (devicesOnly_timerTicksFrom s 0 _).trans (ih _)

namespace Between

variable {s : State}

/-- The advance of the devices keeps the invariant; the remainders are those of a division (R622). -/
theorem advanceDevices (h : Between s) (e : Nat) : Between (s.advanceDevices e) := by
  have hb := OpenCfg.bounds (c := s.cfg) h.ext
  have hd (a b c : Nat) : Between (s.takeDevices (((s.ppuDots a).apuTicks b).timerTicks c)) := by
    have hall : DevicesOnly s (((s.ppuDots a).apuTicks b).timerTicks c) :=
      ((devicesOnly_ppuDots s a).trans (devicesOnly_apuTicks _ b)).trans (devicesOnly_timerTicks _ c)
    rw [← hall]
    exact ((h.ppuDots a).apuTicks b).timerTicks c
  exact
    { hd _ _ _ with
      remPpu := Nat.mod_lt _ hb.dotsPerCycle
      remApu := Nat.mod_lt _ hb.apuTicksPerCycle
      remTimer := Nat.mod_lt _ hb.timerClock }

/-- Every part of a step keeps the invariant. -/
theorem stepKeeps : StepKeeps Between where
  update := update
  gapStep _ h := { h with }
  traced b i h := by
    unfold State.traced
    split <;> exact { h with }
  started h := { h with shadow := fun _ => rfl }
  acknowledge k h := h.acknowledge k
  devices n h := h.advanceDevices n

end Between

/-- Settles O44: the invariant, but for the decode state, is kept by every part of a step, whose end forgets the decode
state. -/
theorem invariantIsKept : Obligations.InvariantIsKept := by
  unfold Obligations.InvariantIsKept
  intro s t hs h
  obtain ⟨ht, hend⟩ := Between.stepKeeps.step h (Between.of_inv hs)
  exact hend ▸ ht

/-! ## The invariant after reset (O43) -/

theorem openCfg_wf : Config.openCfg.wf {} = true := by
  unfold Config.openCfg
  split
  next h => exact h
  next => decide

/-- A channel of phase 0 is in its range. -/
theorem phaseOk_zero (k : ChannelKind) {c : Channel} (h : c.phase = 0#15) : phaseOk k c := by
  cases k <;> simp [phaseOk, h]

/-- The invariant holds after every reset with parameters that meet their constraints and memories in canonical form. -/
theorem inv_resetWith {c : Cfg} {o : OpenCfg} {rom : Rom} {save : SaveMem} (m : HostMode) (l : List (Word × Byte))
    (hc : c.wf = true) (ho : o.wf c = true) (hrom : Memory.wf (some 0#8) rom.len rom.cells = true)
    (hsave : Memory.wf (some 0#8) save.size save.cells = true) : Inv (State.resetWith c o rom save m l) := by
  have hb := OpenCfg.bounds ho
  exact
    { cfg := hc
      ext := ho
      ram := wf_nil _ _
      rom := hrom
      save := hsave
      flags := by
        have h := writeFlagsWord_reserved hc 0#16
        rwa [writeFlagsWord, BitVec.zero_and, BitVec.zero_or] at h
      shadow := fun _ => rfl
      marks := fun r _ => by cases r <;> rfl
      enable := BitVec.zero_and
      pending := BitVec.zero_and
      raised := BitVec.zero_and
      timers := List.length_replicate
      apu := List.length_map _
      phases := by
        intro p hp
        obtain ⟨u, -, hu⟩ := List.mem_map.mp (List.of_mem_zip hp).2
        exact phaseOk_zero _ (by rw [← hu])
      ppu := ⟨Nat.lt_trans hb.visibleLines hb.totalLines, Nat.lt_trans hb.visibleDots hb.lineDots,
        (((if_neg (Nat.not_le.mpr hb.visibleLines)).trans (if_neg (Nat.not_le.mpr hb.visibleDots))).symm :)⟩
      remPpu := hb.dotsPerCycle
      remApu := hb.apuTicksPerCycle
      remTimer := hb.timerClock
      cur := rfl }

/-- Settles O43: the reset state is a reset with the default parameters and free OPEN parameters that meet the constraints of
R10. -/
theorem invariantHoldsAtReset : Obligations.InvariantHoldsAtReset :=
  inv_resetWith _ _ (by decide) openCfg_wf (wf_nil _ _) (wf_nil _ _)

end Sys2Proof.Machine

namespace Sys2Proof.Machine

/-! ## The default memory map (O33) -/

/-- The handlers of the table of R111. -/
theorem handlerOf_default (n : Nat) : handlerOf ({} : Cfg).memMap n =
    if n < 0x10000 then some .ram else if n < 0x20000 then some .save else if n < 0x30000 then some .rom0
    else if n < 0x40000 then some .rom1 else if n < 0x100000 then some .romLinear else none := by
  simp only [handlerOf]
  grind

/-- What an address of the ROM windows of the default map names (R114, R115). -/
theorem locate_default_rom {s : State} {a : Phys} (hm : s.cfg.memMap = ({} : Cfg).memMap) (ha : 0x20000 ≤ a.toNat) :
    s.locate a = s.romPlace (if a.toNat < 0x30000 then s.banks.rom0.toNat * 2 ^ 16 + a.toNat % 2 ^ 16
      else if a.toNat < 0x40000 then s.banks.rom1.toNat * 2 ^ 16 + a.toNat % 2 ^ 16
      else s.banks.lin.toNat * 2 ^ 20 + a.toNat) := by
  have hlt : a.toNat < 0x100000 := a.isLt
  have h1 : ¬ a.toNat < 0x10000 := by omega
  have h2 : ¬ a.toNat < 0x20000 := by omega
  rw [State.locate, hm, handlerOf_default, if_neg h1, if_neg h2]
  split_ifs <;> rfl

theorem locate_default_ram {s : State} {a : Phys} (hm : s.cfg.memMap = ({} : Cfg).memMap) (ha : a.toNat < 0x10000) :
    s.locate a = .ram (a.toNat % s.cfg.ramSize) := by
  rw [State.locate, hm, handlerOf_default, if_pos ha]

theorem locate_default_save {s : State} {a : Phys} (hm : s.cfg.memMap = ({} : Cfg).memMap) (h1 : 0x10000 ≤ a.toNat)
    (h2 : a.toNat < 0x20000) : s.locate a = if s.save.size = 0 then .openBus
      else .save ((s.banks.save.toNat * 2 ^ 16 + a.toNat % 2 ^ 16) % s.save.size) := by
  rw [State.locate, hm, handlerOf_default, if_neg (Nat.not_lt.mpr h1), if_pos h2]

/-- A ROM of at least 64 KiB whose length is a power of 2 needs no rounding (R114). -/
theorem romRounded_two_pow {k : Nat} (hk : 16 ≤ k) : romRounded (2 ^ k) 65536 = 2 ^ k := by
  obtain ⟨n, rfl⟩ := Nat.exists_eq_add_of_le hk
  have hpow : 2 ^ (16 + n) = 65536 * 2 ^ n := by rw [Nat.pow_add]
  rw [romRounded, hpow]
  omega

/-- The last 16 bytes below the end of the linear window of bank 0xFF are the last of the ROM (R79, R114). -/
theorem linear_mod_two_pow {k j : Nat} (h1 : 16 ≤ k) (h2 : k ≤ 28) (hj : j < 16) :
    (0xFF * 2 ^ 20 + (0xFFFF0 + j)) % 2 ^ k = 2 ^ k - 16 + j := by
  have hsum : 0xFF * 2 ^ 20 + (0xFFFF0 + j) = 2 ^ 28 - 16 + j := by omega
  obtain ⟨m, hm⟩ : ∃ m, 2 ^ 28 = 2 ^ k * (m + 1) := by
    refine ⟨2 ^ (28 - k) - 1, ?_⟩
    rw [Nat.sub_add_cancel Nat.one_le_two_pow, ← Nat.pow_add]
    congr 1
    omega
  have hk : 2 ^ 16 ≤ 2 ^ k := Nat.pow_le_pow_right (by decide) h1
  have hsplit : 2 ^ 28 - 16 + j = 2 ^ k - 16 + j + 2 ^ k * m := by
    rw [hm, Nat.mul_add]
    omega
  rw [hsum, hsplit, Nat.add_mul_mod_self_left, Nat.mod_eq_of_lt (by omega)]

/-- The bytes from CS:IP after reset stand at the end of the address space (R79, R101). -/
theorem phys_reset {j : Nat} (hj : j < 16) : (phys 0xFFFF#16 (0x0000#16 + BitVec.ofNat 16 j)).toNat = 0xFFFF0 + j := by
  interval_cases j <;> rfl

/-- Settles O33: the handlers of the default map by address, and the offset of the reset vector modulo the ROM length. -/
theorem defaultMemoryMap : Obligations.DefaultMemoryMap := by
  unfold Obligations.DefaultMemoryMap
  refine ⟨fun s a hm => ⟨locate_default_ram hm, locate_default_save hm, locate_default_rom hm⟩, ?_⟩
  intro o rom save m k j hk1 hk2 hlen hj s
  have haddr : (phys s.segs.cs (s.ip + BitVec.ofNat 16 j)).toNat = 0xFFFF0 + j := phys_reset hj
  have hplace : s.locate (phys s.segs.cs (s.ip + BitVec.ofNat 16 j)) = s.romPlace (0xFF * 2 ^ 20 + (0xFFFF0 + j)) := by
    rw [locate_default_rom rfl (by omega), haddr, if_neg (by omega), if_neg (by omega)]
    rfl
  have hpos : 2 ^ 16 ≤ 2 ^ k := Nat.pow_le_pow_right (by decide) hk1
  have hoff : (0xFF * 2 ^ 20 + (0xFFFF0 + j)) % romRounded rom.len 65536 = rom.len - 16 + j := by
    rw [hlen, romRounded_two_pow hk1, linear_mod_two_pow hk1 hk2 hj]
  have hlt : rom.len - 16 + j < rom.len := by omega
  rw [hplace]
  unfold State.romPlace
  rw [show s.rom.len = rom.len from rfl, show s.cfg.romGranule = 65536 from rfl, hoff]
  exact if_pos hlt

end Sys2Proof.Machine

namespace Sys2Proof.Machine

/-! ## The host's byte strings (O45) -/

/-- What a memory whose unlisted cells hold 0 reads at each address of a byte string stored from address `a` on. -/
def HoldsBytes (m : Memory) (a : Nat) (bs : List Byte) : Prop :=
  ∀ k, k < bs.length → some ((Memory.find? m (a + k)).getD 0#8) = bs[k]?

theorem holdsBytes_cons {m : Memory} {a : Nat} {b : Byte} {bs : List Byte} (hb : (Memory.find? m a).getD 0#8 = b)
    (h : HoldsBytes m (a + 1) bs) : HoldsBytes m a (b :: bs) := by
  intro k hk
  cases k with
  | zero => simp [hb]
  | succ k =>
    have := h k (by simpa using hk)
    rwa [Nat.add_assoc, Nat.add_comm 1 k] at this

theorem HoldsBytes.head {m : Memory} {a : Nat} {b : Byte} {bs : List Byte} (h : HoldsBytes m a (b :: bs)) :
    (Memory.find? m a).getD 0#8 = b := by simpa using h 0 (by simp)

theorem HoldsBytes.tail {m : Memory} {a : Nat} {b : Byte} {bs : List Byte} (h : HoldsBytes m a (b :: bs)) : HoldsBytes m (a + 1) bs := by
  intro k hk
  have := h (k + 1) (by simpa using hk)
  rwa [Nat.add_comm k 1, ← Nat.add_assoc, Nat.add_comm 1 k, List.getElem?_cons_succ] at this

theorem bytesOf_of_holdsBytes {m : Memory} {a : Nat} {bs : List Byte} (h : HoldsBytes m a bs) : bytesOf m a bs.length = bs := by
  induction bs generalizing a with
  | nil => rfl
  | cons b bs ih => rw [List.length_cons, bytesOf, h.head, ih h.tail]

/-- The cells of a byte string hold it; listing a cell below hides nothing. -/
theorem holdsBytes_cellsOf (a : Nat) (bs : List Byte) : HoldsBytes (cellsOf a bs) a bs := by
  induction bs generalizing a with
  | nil => exact fun k hk => absurd hk (Nat.not_lt_zero k)
  | cons b bs ih =>
    by_cases hb : b = 0#8
    · rw [cellsOf, if_pos hb]
      exact holdsBytes_cons (by rw [find?_cellsOf_lt (Nat.lt_succ_self a), hb]; rfl) (ih _)
    · rw [cellsOf, if_neg hb]
      refine holdsBytes_cons (by simp [Memory.find?]) fun k hk => ?_
      have hne : a ≠ a + 1 + k := by omega
      rw [Memory.find?, if_neg hne]
      exact ih _ k hk

/-- A byte string written is held. -/
theorem holdsBytes_putBytes (m : Memory) (a : Nat) (bs : List Byte) : HoldsBytes (putBytes m a bs) a bs := by
  induction bs generalizing m a with
  | nil => exact fun k hk => absurd hk (Nat.not_lt_zero k)
  | cons b bs ih =>
    refine holdsBytes_cons ?_ (ih _ _)
    rw [putBytes, find?_putBytes_lt (Nat.lt_succ_self a)]
    exact find?_put_self _ _ _ _ _ (by simp)

/-! ## The state after reset (O45) -/

theorem resetWith_unset (c : Cfg) (o : OpenCfg) (rom : Rom) (save : SaveMem) (m : HostMode) (l : List (Word × Byte))
    (r : Reg16) : (State.resetWith c o rom save m l).unset.get r = ⟨c.resetGpr == .unset, c.resetGpr == .unset⟩ := by
  cases r <;> rfl

/-- The marks of a register whose halves are marked alike. -/
theorem unsetWordReads_eq_nil_iff {s : State} {r : Reg16} {b : Bool} (h : s.unset.get r = ⟨b, b⟩) :
    unsetWordReads s r = [] ↔ b = false := by
  cases r <;> cases b <;> simp_all [unsetWordReads, unsetByteReads, RegTable.get]

/-- A register after reset is unset or holds 0 (R70). -/
theorem resetWith_registers (c : Cfg) (o : OpenCfg) (rom : Rom) (save : SaveMem) (m : HostMode) (l : List (Word × Byte))
    (r : Reg16) :
    let s := State.resetWith c o rom save m l
    (c.resetGpr = .unset → s.unset.get r = ⟨true, true⟩ ∧ unsetWordReads s r ≠ [])
      ∧ (c.resetGpr = .zero → s.reg16 r = 0#16 ∧ unsetWordReads s r = []) := by
  have hm := resetWith_unset c o rom save m l r
  refine ⟨fun h => ?_, fun h => ?_⟩
  · rw [h] at hm
    exact ⟨hm, fun hn => absurd ((unsetWordReads_eq_nil_iff hm).mp hn) (by decide)⟩
  · rw [h] at hm
    exact ⟨by cases r <;> rfl, (unsetWordReads_eq_nil_iff hm).mpr rfl⟩

/-- A RAM byte after reset is unset or holds 0 (R80). -/
theorem resetWith_ram (c : Cfg) (o : OpenCfg) (rom : Rom) (save : SaveMem) (m : HostMode) (l : List (Word × Byte)) (i : Nat) :
    let s := State.resetWith c o rom save m l
    (c.resetRam = .unset → s.unsetPlace (.ram i) = [.readUnset (.ram i)])
      ∧ (c.resetRam = .zero → s.readPlace (.ram i) = 0#8 ∧ s.unsetPlace (.ram i) = []) := by
  refine ⟨fun h => ?_, fun h => ?_⟩ <;>
    simp [State.resetWith, State.unsetPlace, State.readPlace, ramDefault, ramUnlisted, Memory.find?, h]

/-- The machine that a start builds. -/
theorem start_ok {c : Cfg} {o : OpenCfg} {f : RomFile} {m : HostMode} {bytes : List Byte} {l : List (Word × Byte)} {s : State}
    (h : start c o f m bytes l = .ok s) : ∃ rom, romOf c f = .ok rom ∧ s = State.resetWith c o rom (saveOf bytes) m l := by
  unfold start at h
  split at h
  · split at h
    next rom hr =>
      injection h with h
      exact ⟨rom, hr, h.symm⟩
    next => cases h
  · cases h

theorem saveIn_saveOut {s : State} {bs : List Byte} (h : bs.length = s.save.size) : (s.saveIn bs).saveOut = bs := by
  have hb := bytesOf_of_holdsBytes (holdsBytes_putBytes s.save.cells 0 bs)
  rw [h] at hb
  rw [State.saveOut, State.saveIn, ← h, List.take_length, h]
  exact hb

/-- Settles O45: the fields of the reset record, what its marks say, and byte strings that are read back as stored. -/
theorem resetState : Obligations.ResetState := by
  unfold Obligations.ResetState
  refine ⟨?_, ?_, ?_, rfl, fun f => by cases f <;> rfl⟩
  · intro c o rom save m l s
    refine ⟨rfl, rfl, rfl, rfl, rfl, rfl, rfl, rfl, rfl, rfl, ⟨List.length_replicate, ?_⟩, ⟨rfl, rfl, rfl, rfl, rfl, rfl⟩,
      ⟨List.length_map _, ?_⟩, rfl, rfl, ?_, ?_, ?_, ?_, rfl, rfl⟩
    · intro t ht
      rw [List.eq_of_mem_replicate ht]
      exact ⟨rfl, rfl, rfl, rfl⟩
    · intro ch hch
      obtain ⟨u, -, hu⟩ := List.mem_map.mp hch
      exact hu.symm
    · exact fun h r => (resetWith_registers c o rom save m l r).1 h
    · exact fun h r => (resetWith_registers c o rom save m l r).2 h
    · exact fun h i => (resetWith_ram c o rom save m l i).1 h
    · exact fun h i => (resetWith_ram c o rom save m l i).2 h
  · intro c o f m bytes l s h
    obtain ⟨rom, hrom, rfl⟩ := start_ok h
    refine ⟨⟨rom, _, rfl⟩, rfl, bytesOf_of_holdsBytes (holdsBytes_cellsOf 0 bytes), ?_⟩
    cases f with
    | absent =>
      obtain rfl : _ = rom := by injection hrom
      exact ⟨rfl, fun _ => rfl⟩
    | unreadable => cases hrom
    | image bs =>
      obtain rfl : _ = rom := by injection hrom
      refine ⟨rfl, fun i hi => ?_⟩
      have := holdsBytes_cellsOf 0 bs i hi
      rwa [Nat.zero_add] at this
  · exact fun s bs h => ⟨saveIn_saveOut h, rfl⟩

end Sys2Proof.Machine

namespace Sys2Proof

/-! ## Reading back an encoding, one lemma for each kind of operand bytes (R168, R171, R172) -/

section Entries

variable {b : Byte} {rest : List Byte}

theorem decode_plain {i : Instr} (hb : opcodeMap.getD b.toNat .gap = .plain i) : decode ([b] ++ rest) = .instr i rest := by
  rw [List.singleton_append, decode, hb]
  rfl

theorem decode_ib {f : Byte → Instr} {v : Byte} (hb : opcodeMap.getD b.toNat .gap = .ib f) :
    decode ([b, v] ++ rest) = .instr (f v) rest := by
  rw [List.cons_append, decode, hb]
  rfl

theorem decode_iw {f : Word → Instr} {w : Word} (hb : opcodeMap.getD b.toNat .gap = .iw f) :
    decode (b :: wordBytes w ++ rest) = .instr (f w) rest := by
  rw [List.cons_append, decode, hb]
  simp [decodeEntry, wordBytes, withIw]

theorem decode_iwib {f : Word → Byte → Instr} {w : Word} {v : Byte} (hb : opcodeMap.getD b.toNat .gap = .iwib f) :
    decode (b :: (wordBytes w ++ [v]) ++ rest) = .instr (f w v) rest := by
  rw [List.cons_append, decode, hb]
  simp [decodeEntry, wordBytes]

theorem decode_far {f : Word → Word → Instr} {v w : Word} (hb : opcodeMap.getD b.toNat .gap = .far f) :
    decode (b :: (wordBytes v ++ wordBytes w) ++ rest) = .instr (f v w) rest := by
  rw [List.cons_append, decode, hb]
  simp [decodeEntry, wordBytes]

theorem decode_eg8_append {f : Rm8 → Reg8 → Instr} (hb : opcodeMap.getD b.toNat .gap = .eg8 f) {e : Rm8} {g : Reg8}
    (h : e.wf = true) : decode (b :: encodeE8 g.bits e ++ rest) = .instr (f e g) rest := decode_eg8 hb e g rest h

theorem decode_eg16_append {f : Rm16 → Reg16 → Instr} (hb : opcodeMap.getD b.toNat .gap = .eg16 f) {e : Rm16} {g : Reg16}
    (h : e.wf = true) : decode (b :: encodeE16 g.bits e ++ rest) = .instr (f e g) rest := decode_eg16 hb e g rest h

theorem decode_ge8_append {f : Reg8 → Rm8 → Instr} (hb : opcodeMap.getD b.toNat .gap = .eg8 fun e g => f g e) {e : Rm8}
    {g : Reg8} (h : e.wf = true) : decode (b :: encodeE8 g.bits e ++ rest) = .instr (f g e) rest := decode_eg8 hb e g rest h

theorem decode_ge16_append {f : Reg16 → Rm16 → Instr} (hb : opcodeMap.getD b.toNat .gap = .eg16 fun e g => f g e) {e : Rm16}
    {g : Reg16} (h : e.wf = true) : decode (b :: encodeE16 g.bits e ++ rest) = .instr (f g e) rest :=
  decode_eg16 hb e g rest h

theorem decode_ge16ib {f : Reg16 → Rm16 → Byte → Instr} (hb : opcodeMap.getD b.toNat .gap = .eg16ib fun e g => f g e)
    {e : Rm16} {g : Reg16} {v : Byte} (h : e.wf = true) : decode (b :: (encodeE16 g.bits e ++ [v]) ++ rest) = .instr (f g e v) rest := by
  rw [List.cons_append, List.append_assoc, decode, hb]
  simp [decodeEntry, encodeE16_eq, withModRM_encodeField, field_wf16, h, withIb]

theorem decode_ge16iw {f : Reg16 → Rm16 → Word → Instr} (hb : opcodeMap.getD b.toNat .gap = .eg16iw fun e g => f g e)
    {e : Rm16} {g : Reg16} {w : Word} (h : e.wf = true) :
    decode (b :: (encodeE16 g.bits e ++ wordBytes w) ++ rest) = .instr (f g e w) rest := by
  rw [List.cons_append, List.append_assoc, decode, hb]
  simp [decodeEntry, encodeE16_eq, withModRM_encodeField, field_wf16, h, wordBytes, withIw]

/-- A memory operand is encoded as the field that the decoder reads. -/
theorem encodeMem_eq (reg : BitVec 3) (m : Mem) : encodeMem reg m = encodeField reg (.mem m) := rfl

theorem decode_gm16 {f : Reg16 → Mem → Instr} (hb : opcodeMap.getD b.toNat .gap = .mg16 fun m g => f g m) {m : Mem}
    {g : Reg16} (h : m.wf = true) : decode (b :: encodeMem g.bits m ++ rest) = .instr (f g m) rest := by
  rw [List.cons_append, decode, hb, encodeMem_eq]
  have hf : RmField.wf (.mem m) = true := h
  simp [decodeEntry, withModRM_encodeField, hf]

/-- The entry of an ESC opcode (R185). -/
theorem opcodeMap_esc (n : BitVec 3) : opcodeMap.getD (0xD8#8 + n.setWidth 8).toNat .gap = .esc (.esc n) := by
  obtain ⟨⟨n, hn⟩⟩ := n
  interval_cases n <;> rfl

theorem decode_esc {n x : BitVec 3} {e : Rm16} (h : e.wf = true) :
    decode ((0xD8#8 + n.setWidth 8) :: encodeE16 x e ++ rest) = .instr (.esc n x e) rest := by
  rw [List.cons_append, decode, opcodeMap_esc, encodeE16_eq]
  simp [decodeEntry, withModRM_encodeField, field_wf16, h]

end Entries

section Groups

variable {b : Byte} {rest : List Byte} {reg : BitVec 3} {l : List GroupEntry} (hb : opcodeMap.getD b.toNat .gap = .group l)

include hb

theorem decode_group_e8 {f : Rm8 → Instr} (hl : l.getD reg.toNat .gap = .e8 f) {e : Rm8} (h : e.wf = true) :
    decode (b :: encodeE8 reg e ++ rest) = .instr (f e) rest := by
  rw [List.cons_append, encodeE8_eq, decode_group hb _ _ _ (by rwa [field_wf8]), hl]
  simp [decodeGroup]

theorem decode_group_e16 {f : Rm16 → Instr} (hl : l.getD reg.toNat .gap = .e16 f) {e : Rm16} (h : e.wf = true) :
    decode (b :: encodeE16 reg e ++ rest) = .instr (f e) rest := by
  rw [List.cons_append, encodeE16_eq, decode_group hb _ _ _ (by rwa [field_wf16]), hl]
  simp [decodeGroup]

theorem decode_group_m {f : Mem → Instr} (hl : l.getD reg.toNat .gap = .m f) {m : Mem} (h : m.wf = true) :
    decode (b :: encodeMem reg m ++ rest) = .instr (f m) rest := by
  rw [List.cons_append, encodeMem_eq, decode_group hb reg (.mem m) rest h, hl]
  rfl

theorem decode_group_e8ib {f : Rm8 → Byte → Instr} (hl : l.getD reg.toNat .gap = .e8ib f) {e : Rm8} {v : Byte}
    (h : e.wf = true) : decode (b :: (encodeE8 reg e ++ [v]) ++ rest) = .instr (f e v) rest := by
  rw [List.cons_append, List.append_assoc, encodeE8_eq, decode_group hb _ _ _ (by rwa [field_wf8]), hl]
  simp [decodeGroup, withIb]

theorem decode_group_e16ib {f : Rm16 → Byte → Instr} (hl : l.getD reg.toNat .gap = .e16ib f) {e : Rm16} {v : Byte}
    (h : e.wf = true) : decode (b :: (encodeE16 reg e ++ [v]) ++ rest) = .instr (f e v) rest := by
  rw [List.cons_append, List.append_assoc, encodeE16_eq, decode_group hb _ _ _ (by rwa [field_wf16]), hl]
  simp [decodeGroup, withIb]

theorem decode_group_e16iw {f : Rm16 → Word → Instr} (hl : l.getD reg.toNat .gap = .e16iw f) {e : Rm16} {w : Word}
    (h : e.wf = true) : decode (b :: (encodeE16 reg e ++ wordBytes w) ++ rest) = .instr (f e w) rest := by
  rw [List.cons_append, List.append_assoc, encodeE16_eq, decode_group hb _ _ _ (by rwa [field_wf16]), hl]
  simp [decodeGroup, wordBytes, withIw]

end Groups

/-- The decoder reads back the encoding of a well-formed instruction, and leaves the bytes after it (R170). -/
theorem decode_encode (i : Instr) (rest : List Byte) (h : i.wf = true) : decode (encode i ++ rest) = .instr i rest := by
  cases i with
  | addEbGb | orEbGb | adcEbGb | sbbEbGb | andEbGb | subEbGb | xorEbGb | cmpEbGb | testEbGb | xchgEbGb | movEbGb =>
    exact decode_eg8_append rfl h
  | addEvGv | orEvGv | adcEvGv | sbbEvGv | andEvGv | subEvGv | xorEvGv | cmpEvGv | testEvGv | xchgEvGv | movEvGv =>
    exact decode_eg16_append rfl h
  | addGbEb | orGbEb | adcGbEb | sbbGbEb | andGbEb | subGbEb | xorGbEb | cmpGbEb | movGbEb =>
    exact decode_ge8_append rfl h
  | addGvEv | orGvEv | adcGvEv | sbbGvEv | andGvEv | subGvEv | xorGvEv | cmpGvEv | movGvEv =>
    exact decode_ge16_append rfl h
  | addAlIb | orAlIb | adcAlIb | sbbAlIb | andAlIb | subAlIb | xorAlIb | cmpAlIb | pushIbs | joRel8 | jnoRel8
    | jbRel8 | jnbRel8 | jzRel8 | jnzRel8 | jbeRel8 | jaRel8 | jsRel8 | jnsRel8 | jpRel8 | jnpRel8 | jlRel8
    | jgeRel8 | jleRel8 | jgRel8 | testAlIb | intIb | aamIb | aadIb | loopnzRel8 | loopzRel8 | loopRel8 | jcxzRel8
    | inAlIb | inAxIb | outIbAl | outIbAx | jmpRel8 => exact decode_ib rfl
  | addAxIw | orAxIw | adcAxIw | sbbAxIw | andAxIw | subAxIw | xorAxIw | cmpAxIw | pushIw | movAlOb | movAxOw
    | movObAl | movOwAx | testAxIw | retIw | retfIw | callRel16 | jmpRel16 => exact decode_iw rfl
  | addEbIb | addEbIbAlias | orEbIb | orEbIbAlias | adcEbIb | adcEbIbAlias | sbbEbIb | sbbEbIbAlias | andEbIb
    | andEbIbAlias | subEbIb | subEbIbAlias | xorEbIb | xorEbIbAlias | cmpEbIb | cmpEbIbAlias | rolEbIb | rorEbIb
    | rclEbIb | rcrEbIb | shlEbIb | shrEbIb | sarEbIb | movEbIb | testEbIb => exact decode_group_e8ib rfl rfl h
  | addEvIw | orEvIw | adcEvIw | sbbEvIw | andEvIw | subEvIw | xorEvIw | cmpEvIw | movEvIw | testEvIw =>
    exact decode_group_e16iw rfl rfl h
  | addEvIbs | orEvIbs | adcEvIbs | sbbEvIbs | andEvIbs | subEvIbs | xorEvIbs | cmpEvIbs | rolEvIb | rorEvIb
    | rclEvIb | rcrEvIb | shlEvIb | shrEvIb | sarEvIb => exact decode_group_e16ib rfl rfl h
  | boundGvMa | leaGvM | lesGvMp | ldsGvMp => exact decode_gm16 rfl h
  | imulGvEvIw => exact decode_ge16iw rfl h
  | imulGvEvIbs => exact decode_ge16ib rfl h
  | movEwEs | movEwCs | movEwSs | movEwDs | movEsEw | movSsEw | movDsEw | popEv | rolEv1 | rolEvCl | rorEv1
    | rorEvCl | rclEv1 | rclEvCl | rcrEv1 | rcrEvCl | shlEv1 | shlEvCl | shrEv1 | shrEvCl | sarEv1 | sarEvCl | notEv
    | negEv | mulEv | imulEv | divEv | idivEv | incEv | decEv | callEv | jmpEv | pushEv =>
    exact decode_group_e16 rfl rfl h
  | callAp | jmpAp => exact decode_far rfl
  | rolEb1 | rolEbCl | rorEb1 | rorEbCl | rclEb1 | rclEbCl | rcrEb1 | rcrEbCl | shlEb1 | shlEbCl | shrEb1 | shrEbCl
    | sarEb1 | sarEbCl | notEb | negEb | mulEb | imulEb | divEb | idivEb | incEb | decEb =>
    exact decode_group_e8 rfl rfl h
  | enterIwIb => exact decode_iwib rfl
  | esc => exact decode_esc h
  | callMp | jmpMp => exact decode_group_m rfl rfl h
  | pushEs | pushCs | pushSs | pushDs | popEs | popSs | popDs | pfxEs | pfxCs | pfxSs | pfxDs | pfxLock | pfxRepne
    | pfxRep | daa | das | aaa | aas | pusha | popa | insb | insw | outsb | outsw | nop | cbw | cwd | wait | pushf
    | popf | sahf | lahf | movsb | movsw | cmpsb | cmpsw | stosb | stosw | lodsb | lodsw | scasb | scasw | ret
    | leave | retf | int3 | into | iret | xlat | inAlDx | inAxDx | outDxAl | outDxAx | hlt | cmc | clc | stc | cli
    | sti | cld | std => exact decode_plain rfl
  | incR16 r | decR16 r | pushR16 r | popR16 r => cases r <;> rfl
  | xchgR16Ax r =>
    cases r with
    | ax => cases h
    | _ => rfl
  | movR8Ib r b => cases r <;> rfl
  | movR16Iw r w => exact decode_iw (by cases r <;> rfl)

/-- An encoding is at most six bytes (R150). -/
theorem len_le_maxLen (i : Instr) : i.len ≤ maxLen := by
  cases i with
  | addEbGb | orEbGb | adcEbGb | sbbEbGb | andEbGb | subEbGb | xorEbGb | cmpEbGb | testEbGb | xchgEbGb | movEbGb
    | addGbEb | orGbEb | adcGbEb | sbbGbEb | andGbEb | subGbEb | xorGbEb | cmpGbEb | movGbEb | rolEb1 | rolEbCl
    | rorEb1 | rorEbCl | rclEb1 | rclEbCl | rcrEb1 | rcrEbCl | shlEb1 | shlEbCl | shrEb1 | shrEbCl | sarEb1
    | sarEbCl | notEb | negEb | mulEb | imulEb | divEb | idivEb | incEb | decEb => exact (Laws.Length.of_e8 rfl).2
  | addEvGv | orEvGv | adcEvGv | sbbEvGv | andEvGv | subEvGv | xorEvGv | cmpEvGv | testEvGv | xchgEvGv | movEvGv
    | addGvEv | orGvEv | adcGvEv | sbbGvEv | andGvEv | subGvEv | xorGvEv | cmpGvEv | movGvEv | movEwEs | movEwCs
    | movEwSs | movEwDs | movEsEw | movSsEw | movDsEw | popEv | rolEv1 | rolEvCl | rorEv1 | rorEvCl | rclEv1
    | rclEvCl | rcrEv1 | rcrEvCl | shlEv1 | shlEvCl | shrEv1 | shrEvCl | sarEv1 | sarEvCl | notEv | negEv | mulEv
    | imulEv | divEv | idivEv | incEv | decEv | callEv | jmpEv | pushEv | esc => exact (Laws.Length.of_e16 rfl).2
  | addAlIb | orAlIb | adcAlIb | sbbAlIb | andAlIb | subAlIb | xorAlIb | cmpAlIb | pushIbs | joRel8 | jnoRel8
    | jbRel8 | jnbRel8 | jzRel8 | jnzRel8 | jbeRel8 | jaRel8 | jsRel8 | jnsRel8 | jpRel8 | jnpRel8 | jlRel8
    | jgeRel8 | jleRel8 | jgRel8 | testAlIb | intIb | aamIb | aadIb | loopnzRel8 | loopzRel8 | loopRel8 | jcxzRel8
    | inAlIb | inAxIb | outIbAl | outIbAx | jmpRel8 | addAxIw | orAxIw | adcAxIw | sbbAxIw | andAxIw | subAxIw
    | xorAxIw | cmpAxIw | pushIw | movAlOb | movAxOw | movObAl | movOwAx | testAxIw | retIw | retfIw | callRel16
    | jmpRel16 | incR16 | decR16 | pushR16 | popR16 | xchgR16Ax | callAp | jmpAp | movR8Ib | movR16Iw | enterIwIb
    | pushEs | pushCs | pushSs | pushDs | popEs | popSs | popDs | pfxEs | pfxCs | pfxSs | pfxDs | pfxLock | pfxRepne
    | pfxRep | daa | das | aaa | aas | pusha | popa | insb | insw | outsb | outsw | nop | cbw | cwd | wait | pushf
    | popf | sahf | lahf | movsb | movsw | cmpsb | cmpsw | stosb | stosw | lodsb | lodsw | scasb | scasw | ret
    | leave | retf | int3 | into | iret | xlat | inAlDx | inAxDx | outDxAl | outDxAx | hlt | cmc | clc | stc | cli
    | sti | cld | std => exact Nat.le_of_ble_eq_true rfl
  | addEbIb | addEbIbAlias | orEbIb | orEbIbAlias | adcEbIb | adcEbIbAlias | sbbEbIb | sbbEbIbAlias | andEbIb
    | andEbIbAlias | subEbIb | subEbIbAlias | xorEbIb | xorEbIbAlias | cmpEbIb | cmpEbIbAlias | rolEbIb | rorEbIb
    | rclEbIb | rcrEbIb | shlEbIb | shrEbIb | sarEbIb | movEbIb | testEbIb => exact (Laws.Length.of_e8_byte rfl).2
  | addEvIw | orEvIw | adcEvIw | sbbEvIw | andEvIw | subEvIw | xorEvIw | cmpEvIw | movEvIw | testEvIw | imulGvEvIw =>
    exact (Laws.Length.of_e16_word rfl).2
  | addEvIbs | orEvIbs | adcEvIbs | sbbEvIbs | andEvIbs | subEvIbs | xorEvIbs | cmpEvIbs | rolEvIb | rorEvIb
    | rclEvIb | rcrEvIb | shlEvIb | shrEvIb | sarEvIb | imulGvEvIbs => exact (Laws.Length.of_e16_byte rfl).2
  | boundGvMa | leaGvM | lesGvMp | ldsGvMp | callMp | jmpMp => exact (Laws.Length.of_mem rfl).2

namespace Machine

/-! ## A step runs the instruction at CS:IP (O35) -/

theorem started_sameStores (s : State) : SameStores s (started s) := by constructor <;> rfl

/-- An execution step from the outcome of its instruction (R470, R497). -/
theorem runInstr_of_execute {s t : State} {c : Option Nat} (h : (started s).execute = .next (t, c)) :
    s.runInstr = .next (t.singleStep (s.flag .tf) c) := by
  rw [started] at h
  rw [State.runInstr, h]

/-- Settles O35: the fetch finds the instruction, and the step is what follows its execution. -/
theorem stepRunsDecodedInstruction : Obligations.StepRunsDecodedInstruction := by
  unfold Obligations.StepRunsDecodedInstruction
  intro s u i hr hwf hp hb hx
  have hoff : (started s).codeOffset = s.ip := by simp [State.codeOffset, started, hr.idle]
  have hbytes : (started s).codeBytes (started s).codeOffset i.len = encode i := by
    rw [hoff, codeBytes_congr (started_sameStores s) rfl, hb]
  have hf := fetch_of_bytes (fun rest => decode_encode i rest hwf) (len_le_maxLen i) hbytes
  have hc := (cpuStep_of_runs hr).trans (runInstr_of_execute (executeN_instr (n := 65535) hf hx hp))
  exact step_of_cpuStep hc

end Machine

end Sys2Proof

namespace Sys2Proof.Machine

/-! ## What an instruction records (O46): the parts of `entriesOfInstr` -/

/-- The entries of the interrupt entry through the vector taken, if one is. -/
def vectorPart (s t : State) : Option Byte → List FaultRecord
  | some n => entryEntries s t n
  | none => []

/-- The entries of ENTER's display copies. -/
def displayPart (s : State) : Instr → List FaultRecord
  | .enterIwIb _ b =>
    displayEntries (storesDown s s.segs.ss (s.reg16 .sp) [s.reg16 .bp]) s.segs.ss (s.reg16 .bp) (s.reg16 .sp - 2#16)
      (b.toNat % 32 - 1)
  | _ => []

theorem entriesOfInstr_eq (i : Instr) (s t : State) :
    entriesOfInstr i s t = entries s (operandReads s i) ++ vectorPart s t (vectorTaken s i) ++ displayPart s i := rfl

/-- The fault record after an instruction is the old one and the entries of `entriesOfInstr`. -/
def Records (i : Instr) (s t : State) : Prop := t.faults = s.faults ++ entriesOfInstr i s t

/-- An instruction that enters no interrupt and copies no display records its operand reads. -/
theorem Records.of_reads {i : Instr} {s t : State} (hv : vectorTaken s i = none) (hd : displayPart s i = [])
    (hf : t.faults = s.faults ++ entries s (operandReads s i)) : Records i s t := by
  rw [Records, entriesOfInstr_eq, hv, hd, hf, vectorPart, List.append_nil, List.append_nil]

/-- An instruction that falls through from a state that has recorded its operand reads. -/
theorem Records.of_advance {i : Instr} {s u : State} {l : List Read} (hf : u.faults = s.faults ++ entries s l)
    (hl : operandReads s i = l) (hv : vectorTaken s i = none) (hd : displayPart s i = []) : Records i s (u.advance i) :=
  .of_reads hv hd (hl ▸ hf)

/-- An instruction that enters an interrupt after its operand reads records those and the entry. -/
theorem Records.of_enter {i : Instr} {s u : State} {n : Byte} {ret : Word} (hv : vectorTaken s i = some n)
    (hd : displayPart s i = []) (hu : u = s.record (entries s (operandReads s i))) : Records i s (u.enter n ret) := by
  rw [Records, entriesOfInstr_eq, hv, hd, vectorPart, List.append_nil, enter_faults, hu]
  simp [entryEntries]

/-- A state with the fault record of one that has recorded the entries `l`. -/
theorem faults_of_record {s u t : State} {l : List FaultRecord} (h : u = s.record l) (ht : t.faults = u.faults) :
    t.faults = s.faults ++ l := by
  rw [ht, h]
  rfl

theorem faults_of_nil {s t : State} (h : t.faults = s.faults) : t.faults = s.faults ++ entries s [] := by
  rw [h, entries_nil, List.append_nil]

/-! ## The operations in the forms of the instructions -/

section Operations

variable (s : State)

theorem alu8_faults_reg (op : AluOp) (e : Rm8) (g : Reg8) :
    (s.alu8 op e (.rm (.reg g))).faults = s.faults ++ entries s (addr8 e ++ value8 s e ++ [.half g]) := by
  simp [alu8_faults, srcAddr8, srcValue8, addr8, value8]

theorem alu8_faults_imm (op : AluOp) (e : Rm8) (b : Byte) :
    (s.alu8 op e (.imm b)).faults = s.faults ++ entries s (addr8 e ++ value8 s e) := by
  simp [alu8_faults, srcAddr8, srcValue8]

theorem alu16_faults_reg (op : AluOp) (e : Rm16) (g : Reg16) :
    (s.alu16 op e (.rm (.reg g))).faults = s.faults ++ entries s (addr16 e ++ value16 s e ++ [.word g]) := by
  simp [alu16_faults, srcAddr16, srcValue16, addr16, value16]

theorem alu16_faults_imm (op : AluOp) (e : Rm16) (v : Word) :
    (s.alu16 op e (.imm v)).faults = s.faults ++ entries s (addr16 e ++ value16 s e) := by
  simp [alu16_faults, srcAddr16, srcValue16]

theorem test8_faults_reg (e : Rm8) (g : Reg8) :
    (s.test8 e (.rm (.reg g))).faults = s.faults ++ entries s (addr8 e ++ value8 s e ++ [.half g]) := by
  simp [test8_faults, srcAddr8, srcValue8, addr8, value8]

theorem test8_faults_imm (e : Rm8) (b : Byte) :
    (s.test8 e (.imm b)).faults = s.faults ++ entries s (addr8 e ++ value8 s e) := by
  simp [test8_faults, srcAddr8, srcValue8]

theorem test16_faults_reg (e : Rm16) (g : Reg16) :
    (s.test16 e (.rm (.reg g))).faults = s.faults ++ entries s (addr16 e ++ value16 s e ++ [.word g]) := by
  simp [test16_faults, srcAddr16, srcValue16, addr16, value16]

theorem test16_faults_imm (e : Rm16) (v : Word) :
    (s.test16 e (.imm v)).faults = s.faults ++ entries s (addr16 e ++ value16 s e) := by
  simp [test16_faults, srcAddr16, srcValue16]

theorem mov8_faults_reg (e : Rm8) (g : Reg8) :
    (s.mov8 e (.rm (.reg g))).faults = s.faults ++ entries s (addr8 e ++ [.half g]) := by
  simp [mov8_faults, srcAddr8, srcValue8, addr8, value8]

theorem mov8_faults_imm (e : Rm8) (b : Byte) : (s.mov8 e (.imm b)).faults = s.faults ++ entries s (addr8 e) := by
  simp [mov8_faults, srcAddr8, srcValue8]

theorem mov16_faults_reg (e : Rm16) (g : Reg16) :
    (s.mov16 e (.rm (.reg g))).faults = s.faults ++ entries s (addr16 e ++ [.word g]) := by
  simp [mov16_faults, srcAddr16, srcValue16, addr16, value16]

theorem mov16_faults_imm (e : Rm16) (v : Word) : (s.mov16 e (.imm v)).faults = s.faults ++ entries s (addr16 e) := by
  simp [mov16_faults, srcAddr16, srcValue16]

theorem movFromSReg_faults (e : Rm16) (r : SReg) : (s.movFromSReg e r).faults = s.faults ++ entries s (addr16 e) := by
  simp [State.movFromSReg, State.resolve16, unsetAddr16_eq]

theorem shift8_cl_faults (op : ShiftOp) (e : Rm8) (b : Byte) :
    ((s.note8 .cl).shift8 op e b).faults = s.faults ++ entries s (.half .cl :: (addr8 e ++ value8 s e)) := by
  simp [shift8_faults, note8_eq]

theorem shift16_cl_faults (op : ShiftOp) (e : Rm16) (b : Byte) :
    ((s.note8 .cl).shift16 op e b).faults = s.faults ++ entries s (.half .cl :: (addr16 e ++ value16 s e)) := by
  simp [shift16_faults, note8_eq]

/-- The adjustment of AAA and AAS is that of the low digit (R278, R279). -/
theorem asciiAdjusts_eq : asciiAdjusts (s.reg8 .al) (s.flag .af) = lowAdjusts s := by
  have h : ((s.reg8 .al) &&& 0x0F#8).toNat = (s.reg8 .al).toNat % 16 := by
    rw [BitVec.toNat_and]
    exact Nat.and_two_pow_sub_one_eq_mod _ 4
  rw [asciiAdjusts, lowAdjusts, h]
  rfl

theorem asciiAdjust_faults (op : Config.UndefOp) (f : Bool → Word → Bool → Word) :
    (s.asciiAdjust op f).faults = s.faults ++ entries s (if lowAdjusts s then [.word .ax] else [.half .al]) := by
  simp only [State.asciiAdjust, asciiAdjusts_eq, note16_eq, note8_eq]
  split <;> rfl

theorem noteMem8_ds (o : Word) : s.noteMem8 (s.segOr .ds) o = s.record (entries s [.byte (sourceSeg s) o]) := by
  rw [noteMem8_eq, segOr_ds]

theorem noteMem16_ds (o : Word) : s.noteMem16 (s.segOr .ds) o = s.record (entries s [.pair (sourceSeg s) o]) := by
  rw [noteMem16_eq, segOr_ds]

theorem translate_faults : s.translate.faults = s.faults
    ++ entries s [.word .bx, .half .al, .byte (sourceSeg s) (s.reg16 .bx + (s.reg8 .al).setWidth 16)] := by
  simp [State.translate, note16_eq, note8_eq, noteMem8_eq, segOr_ds, zextByte, State.setReg8]

/-! ### The stack -/

theorem pushReg_faults (r : Reg16) : (s.pushReg r).faults = s.faults ++ entries s [.word r, .word .sp] := by
  simp [State.pushReg, push_faults, note16_eq]

theorem pushGeneral_faults (r : Reg16) : (s.pushGeneral r).faults
    = s.faults ++ entries s (if r = .sp ∧ s.cfg.pushSpNew = true then [.word .sp] else [.word r, .word .sp]) := by
  unfold State.pushGeneral
  split
  · exact push_faults _ _
  · exact pushReg_faults _ _

theorem pushAll_faults : s.pushAll.faults = s.faults ++ entries s
    [.word .sp, .word .ax, .word .sp, .word .cx, .word .dx, .word .bx, .word .bp, .word .si, .word .di] := by
  simp [State.pushAll, State.pushReg, push_faults, note16_eq]

theorem popReg_faults (r : Reg16) : (s.popReg r).faults = s.faults ++ entries s (poppedReads s [0#16]) := drop_faults s

theorem popSReg_faults (r : SReg) : (s.popSReg r).faults = s.faults ++ entries s (poppedReads s [0#16]) := by
  cases r <;> exact drop_faults s

theorem popRm_faults (e : Rm16) : (s.popRm e).faults = s.faults ++ entries s (addr16 e ++ poppedReads s [0#16]) := by
  simp [State.popRm, State.resolve16, unsetAddr16_eq, drop_faults, poppedReads]

theorem drop_drop_faults : s.drop.drop.faults = s.faults ++ entries s (poppedReads s [0#16, 2#16]) := by
  simp [drop_faults, poppedReads]

end Operations

end Sys2Proof.Machine

namespace Sys2Proof.Machine

/-! ### Pops and frames -/

section Operations

variable (s : State)

theorem leaveInterrupt_faults : s.leaveInterrupt.faults = s.faults ++ entries s (poppedReads s [0#16, 2#16, 4#16]) := by
  have h : s.leaveInterrupt.faults = s.drop.drop.drop.faults := rfl
  rw [h]
  simp [drop_faults, poppedReads, BitVec.add_assoc]

theorem popAll_faults : s.popAll.faults
    = s.faults ++ entries s (poppedReads s [0#16, 2#16, 4#16, 8#16, 10#16, 12#16, 14#16]) := by
  simp [State.popAll, State.popReg, drop_faults, poppedReads, BitVec.add_assoc]

theorem leaveFrame_faults : s.leaveFrame.faults = s.faults ++ entries s [.word .bp, .pair s.segs.ss (s.reg16 .bp)] := by
  simp [State.leaveFrame, State.popReg, drop_faults, poppedReads, note16_eq]

theorem pushReg_stores (r : Reg16) : SameStores (storesDown s s.segs.ss (s.reg16 .sp) [s.reg16 r]) (s.pushReg r) :=
  SameStores.trans (SameStores.writeMem16 (untouched_record s (s.unset16 r)).stores _ _ _)
    (push_stores (s.note16 r) (s.reg16 r))

/-- SP is set after the copies of ENTER's display. -/
theorem copyDisplay_sp (n : Nat) {u : State} (h : entriesOf u (.word .sp) = []) :
    entriesOf (u.copyDisplay n) (.word .sp) = [] := by
  induction n generalizing u with
  | zero => exact h
  | succ n ih => exact ih (by simp)

/-- ENTER reads BP and SP, and BP again before the first display copy (R409). -/
theorem enterFrame_faults (size : Word) (level : Nat) : (s.enterFrame size level).faults
    = s.faults ++ entries s ([.word .bp, .word .sp] ++ if 2 ≤ level then [.word .bp] else [])
      ++ displayEntries (storesDown s s.segs.ss (s.reg16 .sp) [s.reg16 .bp]) s.segs.ss (s.reg16 .bp) (s.reg16 .sp - 2#16)
        (level - 1) := by
  have hsp : entriesOf (s.pushReg .bp) (.word .sp) = [] := by simp [State.pushReg]
  have hbp : entriesOf (s.pushReg .bp) (.word .bp) = entriesOf s (.word .bp) := by simp [State.pushReg, State.note16]
  cases level with
  | zero =>
    have h : (s.enterFrame size 0).faults = (s.pushReg .bp).faults := rfl
    rw [h, pushReg_faults]
    simp [displayEntries]
  | succ n =>
    have h : (s.enterFrame size (n + 1)).faults
        = (((s.pushReg .bp).copyDisplay n).push ((s.pushReg .bp).reg16 .sp)).faults := rfl
    have hsegs : (s.pushReg .bp).segs = s.segs := by simp [State.pushReg, State.push, State.note16]
    have hregbp : (s.pushReg .bp).reg16 .bp = s.reg16 .bp := by simp [State.pushReg, State.push, State.note16]
    have hregsp : (s.pushReg .bp).reg16 .sp = s.reg16 .sp - 2#16 := by simp [State.pushReg, State.push, State.note16]
    rw [h, push_faults, entries_cons, copyDisplay_sp n hsp, copyDisplay_faults n (pushReg_stores s .bp) hsp, pushReg_faults,
      hsegs, hregbp, hregsp]
    cases n <;> simp [hbp]

/-! ### String elements -/

theorem movsElem8_faults : s.movsElem8.faults
    = s.faults ++ entries s [.word .si, .byte (sourceSeg s) (s.reg16 .si), .word .di] := by
  simp [State.movsElem8, State.bump, noteSrcElem8_record, putDst8_faults]

theorem movsElem16_faults : s.movsElem16.faults
    = s.faults ++ entries s [.word .si, .pair (sourceSeg s) (s.reg16 .si), .word .di] := by
  simp [State.movsElem16, State.bump, noteSrcElem16_record, putDst16_faults]

theorem cmpsElem8_faults : s.cmpsElem8.faults = s.faults
    ++ entries s [.word .si, .byte (sourceSeg s) (s.reg16 .si), .word .di, .byte s.segs.es (s.reg16 .di)] := by
  simp [State.cmpsElem8, State.bump, noteSrcElem8_record, noteDstElem8_record]

theorem cmpsElem16_faults : s.cmpsElem16.faults = s.faults
    ++ entries s [.word .si, .pair (sourceSeg s) (s.reg16 .si), .word .di, .pair s.segs.es (s.reg16 .di)] := by
  simp [State.cmpsElem16, State.bump, noteSrcElem16_record, noteDstElem16_record]

theorem scasElem8_faults : s.scasElem8.faults
    = s.faults ++ entries s [.word .di, .byte s.segs.es (s.reg16 .di), .half .al] := by
  simp [State.scasElem8, State.bump, noteDstElem8_record, note8_eq]

theorem scasElem16_faults : s.scasElem16.faults
    = s.faults ++ entries s [.word .di, .pair s.segs.es (s.reg16 .di), .word .ax] := by
  simp [State.scasElem16, State.bump, noteDstElem16_record, note16_eq]

theorem lodsElem8_faults : s.lodsElem8.faults = s.faults ++ entries s [.word .si, .byte (sourceSeg s) (s.reg16 .si)] := by
  simp [State.lodsElem8, State.bump, noteSrcElem8_record, State.setReg8]

theorem lodsElem16_faults : s.lodsElem16.faults = s.faults ++ entries s [.word .si, .pair (sourceSeg s) (s.reg16 .si)] := by
  simp [State.lodsElem16, State.bump, noteSrcElem16_record]

theorem stosElem8_faults : s.stosElem8.faults = s.faults ++ entries s [.half .al, .word .di] := by
  simp [State.stosElem8, State.bump, putDst8_faults, note8_eq]

theorem stosElem16_faults : s.stosElem16.faults = s.faults ++ entries s [.word .ax, .word .di] := by
  simp [State.stosElem16, State.bump, putDst16_faults, note16_eq]

theorem insElem8_faults : s.insElem8.faults = s.faults ++ entries s [.word .dx, .word .di] := by
  simp [State.insElem8, State.bump, putDst8_faults, note16_eq]

theorem insElem16_faults : s.insElem16.faults = s.faults ++ entries s [.word .dx, .word .di] := by
  simp [State.insElem16, State.bump, putDst16_faults, note16_eq]

theorem outsElem8_faults : s.outsElem8.faults
    = s.faults ++ entries s [.word .si, .byte (sourceSeg s) (s.reg16 .si), .word .dx] := by
  simp [State.outsElem8, State.bump, noteSrcElem8_record, note16_eq]

theorem outsElem16_faults : s.outsElem16.faults
    = s.faults ++ entries s [.word .si, .pair (sourceSeg s) (s.reg16 .si), .word .dx] := by
  simp [State.outsElem16, State.bump, noteSrcElem16_record, note16_eq]

/-- A string instruction whose element makes the reads `reads`: where it is repeated, CX is read first (R361). -/
theorem stringStep_faults {elem : State → State} {reads : State → List Read}
    (he : ∀ u : State, (elem u).faults = u.faults ++ entries u (reads u))
    (hr : ∀ k, reads (s.record k) = reads s) (i : Instr) (stops : RepKind → Word → Bool) :
    (s.stringStep i elem stops).faults = s.faults ++ entries s (elementReads s (reads s)) := by
  unfold State.stringStep elementReads
  cases s.cur.rep with
  | none => exact he s
  | some k =>
    by_cases hcx : s.reg16 .cx = 0#16
    · have hcxr : (s.note16 .cx).faults = s.faults ++ entries s [.word .cx] := faults_of_record (note16_eq s .cx) rfl
      simp only [if_pos hcx]
      exact hcxr
    · have hel : (elem (s.note16 .cx)).faults = s.faults ++ entries s (.word .cx :: reads s) := by
        rw [he, note16_eq, hr]
        simp
      simp only [if_neg hcx]
      split <;> exact hel

end Operations

end Sys2Proof.Machine

namespace Sys2Proof.Machine

/-! ### Stores, ports and transfers after their reads -/

section Operations

variable (s : State)

theorem note_al_writeMem8_faults (sg o : Word) (v : Byte) :
    ((s.note8 .al).writeMem8 sg o v).faults = s.faults ++ entries s [.half .al] := by
  rw [writeMem8_faults]
  exact faults_of_record (note8_eq s .al) rfl

theorem note_ax_writeMem16_faults (sg o v : Word) : ((s.note16 .ax).writeMem16 sg o v).faults = s.faults ++ entries s [.word .ax] := by
  rw [writeMem16_faults]
  exact faults_of_record (note16_eq s .ax) rfl

theorem note_al_portWrite8_faults (p : Word) (v : Byte) :
    ((s.note8 .al).portWrite8 p v).faults = s.faults ++ entries s [.half .al] := by
  rw [portWrite8_faults]
  exact faults_of_record (note8_eq s .al) rfl

theorem note_ax_portWrite16_faults (p v : Word) : ((s.note16 .ax).portWrite16 p v).faults = s.faults ++ entries s [.word .ax] := by
  rw [portWrite16_faults]
  exact faults_of_record (note16_eq s .ax) rfl

theorem note_dx_al_portWrite8_faults (p : Word) (v : Byte) :
    (((s.note16 .dx).note8 .al).portWrite8 p v).faults = s.faults ++ entries s [.word .dx, .half .al] := by
  simp [note16_eq, note8_eq]

theorem note_dx_ax_portWrite16_faults (p v : Word) :
    (((s.note16 .dx).note16 .ax).portWrite16 p v).faults = s.faults ++ entries s [.word .dx, .word .ax] := by
  simp [note16_eq]

theorem fetch16_push_faults (e : Rm16) (v : Word) :
    ((s.fetch16 e).push v).faults = s.faults ++ entries s (addr16 e ++ value16 s e ++ [.word .sp]) := by
  simp [push_faults, fetch16_record]

theorem branch_faults (i : Instr) (c : Bool) (rel : Byte) : (s.branch i c rel).faults = s.faults := by
  cases c <;> rfl

theorem branch_faults_nil (i : Instr) (c : Bool) (rel : Byte) : (s.branch i c rel).faults = s.faults ++ entries s [] := by
  rw [branch_faults, entries_nil, List.append_nil]

theorem note_cx_branch_faults (i : Instr) (c : Bool) (rel : Byte) :
    ((s.note16 .cx).branch i c rel).faults = s.faults ++ entries s [.word .cx] := by
  rw [branch_faults]
  exact faults_of_record (note16_eq s .cx) rfl

theorem loop_faults (i : Instr) (c : Bool) (rel : Byte) : (s.loop i c rel).faults = s.faults ++ entries s [.word .cx] := by
  rw [State.loop, branch_faults]
  exact faults_of_record (note16_eq s .cx) rfl

theorem callFar_faults (i : Instr) (sel off : Word) : (s.callFar i sel off).faults = s.faults ++ entries s [.word .sp] := by
  have h : (s.callFar i sel off).faults = ((s.push s.segs.cs).push (s.ipNext i)).faults := rfl
  rw [h]
  simp [push_faults]

theorem noteFar_callFar_faults (m : Mem) (i : Instr) (sel off : Word) :
    ((s.noteFar m).callFar i sel off).faults = s.faults ++ entries s (farReads s m ++ [.word .sp]) := by
  rw [callFar_faults, noteFar_eq]
  simp

/-! ### Instructions that may enter an interrupt -/

theorem div8_records (e : Rm8) : Records (.divEb e) s (s.div8 (.divEb e) e) := by
  by_cases h : (s.rm8 e).toNat = 0 ∨ 2 ^ 8 ≤ (s.reg16 .ax).toNat / (s.rm8 e).toNat
  · rw [State.div8, divU_none h]
    exact .of_enter (if_pos h) rfl (fetchDiv8_record s e)
  · obtain ⟨hd, hq⟩ := not_or.mp h
    rw [State.div8, divU_some hd (Nat.not_le.mp hq)]
    exact .of_reads (if_neg h) rfl (faults_of_record (fetchDiv8_record s e) rfl)

theorem dxax_toNat : s.dxax.toNat = (s.reg16 .dx).toNat * 65536 + (s.reg16 .ax).toNat := append_toNat _ _

theorem dxax_toInt : s.dxax.toInt = (s.reg16 .dx).toInt * 65536 + (s.reg16 .ax).toNat := append_toInt _ _

theorem div16_records (e : Rm16) : Records (.divEv e) s (s.div16 (.divEv e) e) := by
  by_cases h : (s.rm16 e).toNat = 0 ∨ 2 ^ 16 ≤ ((s.reg16 .dx).toNat * 65536 + (s.reg16 .ax).toNat) / (s.rm16 e).toNat
  · rw [State.div16, dxax_toNat, divU_none h]
    exact .of_enter (if_pos h) rfl (fetchDiv16_record s e)
  · obtain ⟨hd, hq⟩ := not_or.mp h
    rw [State.div16, dxax_toNat, divU_some hd (Nat.not_le.mp hq)]
    exact .of_reads (if_neg h) rfl (faults_of_record (fetchDiv16_record s e) rfl)

theorem idiv8_records (e : Rm8) : Records (.idivEb e) s (s.idiv8 (.idivEb e) e) := by
  by_cases h : (s.rm8 e).toInt = 0 ∨ ¬idivFits s.cfg 8 ((s.reg16 .ax).toInt.tdiv (s.rm8 e).toInt)
  · rw [State.idiv8, divS_none h]
    exact .of_enter (if_pos h) rfl (fetchDiv8_record s e)
  · obtain ⟨hd, hq⟩ := not_or.mp h
    rw [State.idiv8, divS_some hd (not_not.mp hq)]
    exact .of_reads (if_neg h) rfl (faults_of_record (fetchDiv8_record s e) rfl)

theorem idiv16_records (e : Rm16) : Records (.idivEv e) s (s.idiv16 (.idivEv e) e) := by
  by_cases h : (s.rm16 e).toInt = 0
      ∨ ¬idivFits s.cfg 16 (((s.reg16 .dx).toInt * 65536 + (s.reg16 .ax).toNat).tdiv (s.rm16 e).toInt)
  · rw [State.idiv16, dxax_toInt, divS_none h]
    exact .of_enter (if_pos h) rfl (fetchDiv16_record s e)
  · obtain ⟨hd, hq⟩ := not_or.mp h
    rw [State.idiv16, dxax_toInt, divS_some hd (not_not.mp hq)]
    exact .of_reads (if_neg h) rfl (faults_of_record (fetchDiv16_record s e) rfl)

theorem aamdBase_toNat (b : Byte) : (s.aamdBase b).toNat = aamBase s b := by
  unfold State.aamdBase aamBase
  split <;> rfl

theorem aamdBase_eq_zero_iff (b : Byte) : s.aamdBase b = 0#8 ↔ aamBase s b = 0 := by
  rw [← aamdBase_toNat, BitVec.toNat_eq]
  rfl

theorem aam_records (b : Byte) : ∃ t, exec (.aamIb b) s = .next t ∧ Records (.aamIb b) s t := by
  by_cases h : aamBase s b = 0
  · have hr : operandReads s (.aamIb b) = [] := if_pos h
    refine ⟨_, if_pos ((aamdBase_eq_zero_iff s b).mpr h), .of_enter (if_pos h) rfl ?_⟩
    rw [hr, entries_nil, record_nil]
  · have hr : operandReads s (.aamIb b) = [.half .al] := if_neg h
    refine ⟨_, if_neg (mt (aamdBase_eq_zero_iff s b).mp h), .of_reads (if_neg h) rfl ?_⟩
    rw [hr]
    exact faults_of_record (note8_eq s .al) rfl

theorem into_records : Records .into s (if s.flag .of then s.enter 4#8 (s.ipNext .into) else s.advance .into) := by
  by_cases h : s.flag .of = true
  · rw [if_pos h]
    exact .of_enter (if_pos h) rfl (record_nil s).symm
  · rw [if_neg h]
    exact .of_reads (if_neg h) rfl (List.append_nil _).symm

theorem boundExceeded_iff (x lo hi : Word) : boundExceeded x lo hi = true ↔ x.toInt < lo.toInt ∨ hi.toInt < x.toInt := by
  simp [boundExceeded]

theorem bound_records (g : Reg16) (m : Mem) : ∃ t, exec (.boundGvMa g m) s = .next t ∧ Records (.boundGvMa g m) s t := by
  have hr : (s.noteFar m).note16 g = s.record (entries s (farReads s m ++ [.word g])) := by simp [noteFar_eq, note16_eq]
  have hb := boundExceeded_iff (s.reg16 g) (s.farOff m) (s.farSel m)
  by_cases h : boundExceeded (s.reg16 g) (s.farOff m) (s.farSel m) = true
  · exact ⟨_, if_pos h, .of_enter (if_pos (hb.mp h)) rfl hr⟩
  · exact ⟨_, if_neg h, .of_reads (if_neg (mt hb.mpr h)) rfl (faults_of_record hr rfl)⟩

theorem enter_records (size : Word) (b : Byte) :
    Records (.enterIwIb size b) s ((s.enterFrame size (b &&& 0x1F#8).toNat).advance (.enterIwIb size b)) := by
  have hb : (b &&& 0x1F#8).toNat = b.toNat % 32 := by
    rw [BitVec.toNat_and]
    exact Nat.and_two_pow_sub_one_eq_mod _ 5
  have hf := enterFrame_faults s size (b.toNat % 32)
  rw [hb, Records, entriesOfInstr_eq]
  simpa [vectorPart, vectorTaken, displayPart, operandReads, State.advance, State.setIp] using hf

end Operations

/-- Every instruction answers a next state whose fault record is that of R53. -/
theorem exec_records (i : Instr) (s : State) : ∃ t, exec i s = .next t ∧ Records i s t := by
  cases i with
  | addEbGb | orEbGb | adcEbGb | sbbEbGb | andEbGb | subEbGb | xorEbGb | cmpEbGb =>
    exact ⟨_, rfl, .of_advance (alu8_faults_reg ..) rfl rfl rfl⟩
  | addEvGv | orEvGv | adcEvGv | sbbEvGv | andEvGv | subEvGv | xorEvGv | cmpEvGv =>
    exact ⟨_, rfl, .of_advance (alu16_faults_reg ..) rfl rfl rfl⟩
  | addGbEb | addAlIb | orGbEb | orAlIb | adcGbEb | adcAlIb | sbbGbEb | sbbAlIb | andGbEb | andAlIb | subGbEb
    | subAlIb | xorGbEb | xorAlIb | cmpGbEb | cmpAlIb => exact ⟨_, rfl, .of_advance (alu8_faults ..) rfl rfl rfl⟩
  | addGvEv | addAxIw | orGvEv | orAxIw | adcGvEv | adcAxIw | sbbGvEv | sbbAxIw | andGvEv | andAxIw | subGvEv
    | subAxIw | xorGvEv | xorAxIw | cmpGvEv | cmpAxIw => exact ⟨_, rfl, .of_advance (alu16_faults ..) rfl rfl rfl⟩
  | addEbIb | addEbIbAlias | orEbIb | orEbIbAlias | adcEbIb | adcEbIbAlias | sbbEbIb | sbbEbIbAlias | andEbIb
    | andEbIbAlias | subEbIb | subEbIbAlias | xorEbIb | xorEbIbAlias | cmpEbIb | cmpEbIbAlias =>
    exact ⟨_, rfl, .of_advance (alu8_faults_imm ..) rfl rfl rfl⟩
  | addEvIw | addEvIbs | orEvIw | orEvIbs | adcEvIw | adcEvIbs | sbbEvIw | sbbEvIbs | andEvIw | andEvIbs
    | subEvIw | subEvIbs | xorEvIw | xorEvIbs | cmpEvIw | cmpEvIbs =>
    exact ⟨_, rfl, .of_advance (alu16_faults_imm ..) rfl rfl rfl⟩
  | testEbGb => exact ⟨_, rfl, .of_advance (test8_faults_reg ..) rfl rfl rfl⟩
  | testEvGv => exact ⟨_, rfl, .of_advance (test16_faults_reg ..) rfl rfl rfl⟩
  | testAlIb => exact ⟨_, rfl, .of_advance (test8_faults ..) rfl rfl rfl⟩
  | testAxIw => exact ⟨_, rfl, .of_advance (test16_faults ..) rfl rfl rfl⟩
  | testEbIb => exact ⟨_, rfl, .of_advance (test8_faults_imm ..) rfl rfl rfl⟩
  | testEvIw => exact ⟨_, rfl, .of_advance (test16_faults_imm ..) rfl rfl rfl⟩
  | rolEbIb | rolEb1 | rorEbIb | rorEb1 | rclEbIb | rclEb1 | rcrEbIb | rcrEb1 | shlEbIb | shlEb1 | shrEbIb
    | shrEb1 | sarEbIb | sarEb1 => exact ⟨_, rfl, .of_advance (shift8_faults ..) rfl rfl rfl⟩
  | rolEvIb | rolEv1 | rorEvIb | rorEv1 | rclEvIb | rclEv1 | rcrEvIb | rcrEv1 | shlEvIb | shlEv1 | shrEvIb
    | shrEv1 | sarEvIb | sarEv1 => exact ⟨_, rfl, .of_advance (shift16_faults ..) rfl rfl rfl⟩
  | rolEbCl | rorEbCl | rclEbCl | rcrEbCl | shlEbCl | shrEbCl | sarEbCl =>
    exact ⟨_, rfl, .of_advance (shift8_cl_faults ..) rfl rfl rfl⟩
  | rolEvCl | rorEvCl | rclEvCl | rcrEvCl | shlEvCl | shrEvCl | sarEvCl =>
    exact ⟨_, rfl, .of_advance (shift16_cl_faults ..) rfl rfl rfl⟩
  | incEb | decEb | negEb | notEb => exact ⟨_, rfl, .of_advance (unary8_faults ..) rfl rfl rfl⟩
  | incR16 | decR16 | incEv | decEv | negEv | notEv => exact ⟨_, rfl, .of_advance (unary16_faults ..) rfl rfl rfl⟩
  | mulEb | imulEb => exact ⟨_, rfl, .of_advance (faults_of_record (fetchMul8_record ..) rfl) rfl rfl rfl⟩
  | mulEv | imulEv => exact ⟨_, rfl, .of_advance (faults_of_record (fetchMul16_record ..) rfl) rfl rfl rfl⟩
  | imulGvEvIw | imulGvEvIbs | movEsEw | movDsEw =>
    exact ⟨_, rfl, .of_advance (faults_of_record (fetch16_record ..) rfl) rfl rfl rfl⟩
  | jmpEv => exact ⟨_, rfl, .of_reads rfl rfl (faults_of_record (fetch16_record ..) rfl)⟩
  | movSsEw => exact ⟨_, rfl, .of_advance (faults_of_record (fetch16_record ..) (setShadow_faults _)) rfl rfl rfl⟩
  | divEb e => exact ⟨_, rfl, div8_records s e⟩
  | divEv e => exact ⟨_, rfl, div16_records s e⟩
  | idivEb e => exact ⟨_, rfl, idiv8_records s e⟩
  | idivEv e => exact ⟨_, rfl, idiv16_records s e⟩
  | aamIb b => exact aam_records s b
  | aadIb | cwd => exact ⟨_, rfl, .of_advance (faults_of_record (note16_eq s .ax) rfl) rfl rfl rfl⟩
  | daa | das | cbw => exact ⟨_, rfl, .of_advance (faults_of_record (note8_eq s .al) rfl) rfl rfl rfl⟩
  | aaa | aas => exact ⟨_, rfl, .of_advance (asciiAdjust_faults ..) rfl rfl rfl⟩
  | movEbGb => exact ⟨_, rfl, .of_advance (mov8_faults_reg ..) rfl rfl rfl⟩
  | movEvGv => exact ⟨_, rfl, .of_advance (mov16_faults_reg ..) rfl rfl rfl⟩
  | movGbEb => exact ⟨_, rfl, .of_advance (mov8_faults ..) rfl rfl rfl⟩
  | movGvEv => exact ⟨_, rfl, .of_advance (mov16_faults ..) rfl rfl rfl⟩
  | movEbIb => exact ⟨_, rfl, .of_advance (mov8_faults_imm ..) rfl rfl rfl⟩
  | movEvIw => exact ⟨_, rfl, .of_advance (mov16_faults_imm ..) rfl rfl rfl⟩
  | movEwEs | movEwCs | movEwSs | movEwDs => exact ⟨_, rfl, .of_advance (movFromSReg_faults ..) rfl rfl rfl⟩
  | movAlOb => exact ⟨_, rfl, .of_advance (faults_of_record (noteMem8_ds ..) rfl) rfl rfl rfl⟩
  | movAxOw => exact ⟨_, rfl, .of_advance (faults_of_record (noteMem16_ds ..) rfl) rfl rfl rfl⟩
  | movObAl => exact ⟨_, rfl, .of_advance (note_al_writeMem8_faults ..) rfl rfl rfl⟩
  | movOwAx => exact ⟨_, rfl, .of_advance (note_ax_writeMem16_faults ..) rfl rfl rfl⟩
  | leaGvM => exact ⟨_, rfl, .of_advance (faults_of_record (noteEa_eq ..) rfl) rfl rfl rfl⟩
  | lesGvMp | ldsGvMp => exact ⟨_, rfl, .of_advance (faults_of_record (noteFar_eq ..) rfl) rfl rfl rfl⟩
  | jmpMp => exact ⟨_, rfl, .of_reads rfl rfl (faults_of_record (noteFar_eq ..) rfl)⟩
  | xchgEbGb => exact ⟨_, rfl, .of_advance (xchg8_faults ..) rfl rfl rfl⟩
  | xchgEvGv | xchgR16Ax => exact ⟨_, rfl, .of_advance (xchg16_faults ..) rfl rfl rfl⟩
  | xlat => exact ⟨_, rfl, .of_advance (translate_faults s) rfl rfl rfl⟩
  | inAlDx | inAxDx => exact ⟨_, rfl, .of_advance (faults_of_record (note16_eq s .dx) rfl) rfl rfl rfl⟩
  | outIbAl => exact ⟨_, rfl, .of_advance (note_al_portWrite8_faults ..) rfl rfl rfl⟩
  | outIbAx => exact ⟨_, rfl, .of_advance (note_ax_portWrite16_faults ..) rfl rfl rfl⟩
  | outDxAl => exact ⟨_, rfl, .of_advance (note_dx_al_portWrite8_faults ..) rfl rfl rfl⟩
  | outDxAx => exact ⟨_, rfl, .of_advance (note_dx_ax_portWrite16_faults ..) rfl rfl rfl⟩
  | pushR16 => exact ⟨_, rfl, .of_advance (pushGeneral_faults ..) rfl rfl rfl⟩
  | pushIw | pushIbs | pushEs | pushCs | pushSs | pushDs | pushf =>
    exact ⟨_, rfl, .of_advance (push_faults ..) rfl rfl rfl⟩
  | callRel16 => exact ⟨_, rfl, .of_reads rfl rfl (push_faults ..)⟩
  | pushEv => exact ⟨_, rfl, .of_advance (fetch16_push_faults ..) rfl rfl rfl⟩
  | callEv => exact ⟨_, rfl, .of_reads rfl rfl (fetch16_push_faults ..)⟩
  | popR16 => exact ⟨_, rfl, .of_advance (popReg_faults ..) rfl rfl rfl⟩
  | popEv => exact ⟨_, rfl, .of_advance (popRm_faults ..) rfl rfl rfl⟩
  | popEs | popDs => exact ⟨_, rfl, .of_advance (popSReg_faults ..) rfl rfl rfl⟩
  | popSs => exact ⟨_, rfl, .of_advance ((setShadow_faults _).trans (popSReg_faults ..)) rfl rfl rfl⟩
  | popf => exact ⟨_, rfl, .of_advance (drop_faults s) rfl rfl rfl⟩
  | ret | retIw => exact ⟨_, rfl, .of_reads rfl rfl (drop_faults s)⟩
  | pusha => exact ⟨_, rfl, .of_advance (pushAll_faults s) rfl rfl rfl⟩
  | popa => exact ⟨_, rfl, .of_advance (popAll_faults s) rfl rfl rfl⟩
  | sahf => exact ⟨_, rfl, .of_advance (faults_of_record (note8_eq s .ah) rfl) rfl rfl rfl⟩
  | enterIwIb size b => exact ⟨_, rfl, enter_records s size b⟩
  | leave => exact ⟨_, rfl, .of_advance (leaveFrame_faults s) rfl rfl rfl⟩
  | joRel8 | jnoRel8 | jbRel8 | jnbRel8 | jzRel8 | jnzRel8 | jbeRel8 | jaRel8 | jsRel8 | jnsRel8 | jpRel8
    | jnpRel8 | jlRel8 | jgeRel8 | jleRel8 | jgRel8 => exact ⟨_, rfl, .of_reads rfl rfl (branch_faults_nil ..)⟩
  | jcxzRel8 => exact ⟨_, rfl, .of_reads rfl rfl (note_cx_branch_faults ..)⟩
  | loopnzRel8 | loopzRel8 | loopRel8 => exact ⟨_, rfl, .of_reads rfl rfl (loop_faults ..)⟩
  | callAp => exact ⟨_, rfl, .of_reads rfl rfl (callFar_faults ..)⟩
  | callMp => exact ⟨_, rfl, .of_reads rfl rfl (noteFar_callFar_faults ..)⟩
  | retf | retfIw => exact ⟨_, rfl, .of_reads rfl rfl (drop_drop_faults s)⟩
  | iret => exact ⟨_, rfl, .of_reads rfl rfl (leaveInterrupt_faults s)⟩
  | intIb n => exact ⟨_, rfl, .of_enter rfl rfl (record_nil s).symm⟩
  | int3 => exact ⟨_, rfl, .of_enter rfl rfl (record_nil s).symm⟩
  | into => exact ⟨_, rfl, into_records s⟩
  | boundGvMa g m => exact bound_records s g m
  | movsb => exact ⟨_, rfl, .of_reads rfl rfl (stringStep_faults s movsElem8_faults (fun _ => rfl) ..)⟩
  | movsw => exact ⟨_, rfl, .of_reads rfl rfl (stringStep_faults s movsElem16_faults (fun _ => rfl) ..)⟩
  | cmpsb => exact ⟨_, rfl, .of_reads rfl rfl (stringStep_faults s cmpsElem8_faults (fun _ => rfl) ..)⟩
  | cmpsw => exact ⟨_, rfl, .of_reads rfl rfl (stringStep_faults s cmpsElem16_faults (fun _ => rfl) ..)⟩
  | scasb => exact ⟨_, rfl, .of_reads rfl rfl (stringStep_faults s scasElem8_faults (fun _ => rfl) ..)⟩
  | scasw => exact ⟨_, rfl, .of_reads rfl rfl (stringStep_faults s scasElem16_faults (fun _ => rfl) ..)⟩
  | lodsb => exact ⟨_, rfl, .of_reads rfl rfl (stringStep_faults s lodsElem8_faults (fun _ => rfl) ..)⟩
  | lodsw => exact ⟨_, rfl, .of_reads rfl rfl (stringStep_faults s lodsElem16_faults (fun _ => rfl) ..)⟩
  | stosb => exact ⟨_, rfl, .of_reads rfl rfl (stringStep_faults s stosElem8_faults (fun _ => rfl) ..)⟩
  | stosw => exact ⟨_, rfl, .of_reads rfl rfl (stringStep_faults s stosElem16_faults (fun _ => rfl) ..)⟩
  | insb => exact ⟨_, rfl, .of_reads rfl rfl (stringStep_faults s insElem8_faults (fun _ => rfl) ..)⟩
  | insw => exact ⟨_, rfl, .of_reads rfl rfl (stringStep_faults s insElem16_faults (fun _ => rfl) ..)⟩
  | outsb => exact ⟨_, rfl, .of_reads rfl rfl (stringStep_faults s outsElem8_faults (fun _ => rfl) ..)⟩
  | outsw => exact ⟨_, rfl, .of_reads rfl rfl (stringStep_faults s outsElem16_faults (fun _ => rfl) ..)⟩
  | movR8Ib | inAlIb | lahf | movR16Iw | inAxIb | esc | nop | wait | hlt | cmc | clc | stc | cli | cld | std =>
    exact ⟨_, rfl, .of_advance (faults_of_nil rfl) rfl rfl rfl⟩
  | jmpRel8 | jmpRel16 | jmpAp | pfxEs | pfxCs | pfxSs | pfxDs | pfxLock | pfxRepne | pfxRep =>
    exact ⟨_, rfl, .of_reads rfl rfl (faults_of_nil rfl)⟩
  | sti => exact ⟨_, rfl, .of_advance (faults_of_nil (setShadow_faults _)) rfl rfl rfl⟩

end Sys2Proof.Machine

namespace Sys2Proof.Machine

/-! ## The marks of registers and RAM bytes (O46) -/

/-- The registers without byte halves (R70). -/
def wholeRegs : List Reg16 := [.sp, .bp, .si, .di]

/-- From `s` to `t` no register is marked as unset, and one whose value has changed is not. -/
structure RegMarks (s t : State) : Prop where
  bytes : ∀ q, unsetByteReads t q = unsetByteReads s q ∨ unsetByteReads t q = []
  wholes : ∀ r ∈ wholeRegs, unsetWordReads t r = unsetWordReads s r ∨ unsetWordReads t r = []
  byteSet : ∀ q, t.reg8 q ≠ s.reg8 q → unsetByteReads t q = []
  wholeSet : ∀ r ∈ wholeRegs, t.reg16 r ≠ s.reg16 r → unsetWordReads t r = []

/-- From `s` to `t` no storage byte is marked as unset, and one whose value has changed is not. -/
structure PlaceMarks (s t : State) : Prop where
  places : ∀ p, placeReads t p = placeReads s p ∨ placeReads t p = []
  placeSet : ∀ p, t.readPlace p ≠ s.readPlace p → placeReads t p = []

theorem eq_or_nil_trans {α : Type} {a b c : List α} (h : b = a ∨ b = []) (k : c = b ∨ c = []) : c = a ∨ c = [] := by
  rcases k with rfl | rfl
  · exact h
  · exact .inr rfl

/-- A mark cleared before stays cleared; a value changed now clears its mark now. -/
theorem nil_of_changed {α β : Type} {x y z : α} {b c : List β} (hb : y ≠ x → b = []) (k : c = b ∨ c = []) (hc : z ≠ y → c = [])
    (h : z ≠ x) : c = [] := by
  by_cases hzy : z = y
  · rcases k with rfl | rfl
    · exact hb (hzy ▸ h)
    · rfl
  · exact hc hzy

theorem RegMarks.trans {s t u : State} (h : RegMarks s t) (k : RegMarks t u) : RegMarks s u where
  bytes q := eq_or_nil_trans (h.bytes q) (k.bytes q)
  wholes r hr := eq_or_nil_trans (h.wholes r hr) (k.wholes r hr)
  byteSet q := nil_of_changed (h.byteSet q) (k.bytes q) (k.byteSet q)
  wholeSet r hr := nil_of_changed (h.wholeSet r hr) (k.wholes r hr) (k.wholeSet r hr)

theorem PlaceMarks.trans {s t u : State} (h : PlaceMarks s t) (k : PlaceMarks t u) : PlaceMarks s u where
  places p := eq_or_nil_trans (h.places p) (k.places p)
  placeSet p := nil_of_changed (h.placeSet p) (k.places p) (k.placeSet p)

theorem unsetByteReads_congr {s t : State} (h : t.unset = s.unset) (q : Reg8) : unsetByteReads t q = unsetByteReads s q := by
  cases q <;> simp only [unsetByteReads, h]

theorem unsetWordReads_congr {s t : State} (h : t.unset = s.unset) (r : Reg16) : unsetWordReads t r = unsetWordReads s r := by
  cases r <;> simp only [unsetWordReads, unsetByteReads_congr h, h]

theorem RegMarks.of_eq {s t : State} (hu : t.unset = s.unset) (hr : t.regs = s.regs) : RegMarks s t where
  bytes q := .inl (unsetByteReads_congr hu q)
  wholes r _ := .inl (unsetWordReads_congr hu r)
  byteSet q h := absurd (by simp only [State.reg8, State.reg16, hr]) h
  wholeSet r _ h := absurd (by simp only [State.reg16, hr]) h

theorem PlaceMarks.of_eq {s t : State} (hm : ∀ p, t.unsetPlace p = s.unsetPlace p) (hv : ∀ p, t.readPlace p = s.readPlace p) :
    PlaceMarks s t where
  places p := .inl (by rw [← unsetPlace_eq, hm, unsetPlace_eq])
  placeSet p h := absurd (hv p) h

/-! ### Register writes -/

theorem setReg16_unsetByteReads (s : State) (r : Reg16) (v : Word) (q : Reg8) :
    unsetByteReads (s.setReg16 r v) q = if Reg8.parent q = r then [] else unsetByteReads s q := by
  cases r <;> cases q <;> rfl

theorem setReg16_unsetWordReads (s : State) (r q : Reg16) (v : Word) :
    unsetWordReads (s.setReg16 r v) q = if q = r then [] else unsetWordReads s q := setReg16_entriesOf_word s r q v

theorem setReg8_unsetByteReads (s : State) (r q : Reg8) (v : Byte) :
    unsetByteReads (s.setReg8 r v) q = if q = r then [] else unsetByteReads s q := by
  cases r <;> cases q <;> rfl

/-- A byte write leaves the registers without byte halves. -/
theorem setReg8_unsetWordReads (s : State) (r : Reg8) (v : Byte) {q : Reg16} (hq : q ∈ wholeRegs) :
    unsetWordReads (s.setReg8 r v) q = unsetWordReads s q := by
  simp only [wholeRegs, List.mem_cons, List.not_mem_nil, or_false] at hq
  rcases hq with rfl | rfl | rfl | rfl <;> cases r <;> rfl

theorem parent_notMem_wholeRegs (r : Reg8) : Reg8.parent r ∉ wholeRegs := by cases r <;> decide

theorem RegMarks.setReg16 (s : State) (r : Reg16) (v : Word) : RegMarks s (s.setReg16 r v) where
  bytes q := by
    rw [setReg16_unsetByteReads]
    exact (ite_eq_or_eq _ _ _).symm
  wholes q _ := by
    rw [setReg16_unsetWordReads]
    exact (ite_eq_or_eq _ _ _).symm
  byteSet q h := by
    rw [setReg16_reg8] at h
    rw [setReg16_unsetByteReads]
    by_cases hq : Reg8.parent q = r
    · exact if_pos hq
    · exact absurd (if_neg hq) h
  wholeSet q _ h := by
    rw [setReg16_reg16] at h
    rw [setReg16_unsetWordReads]
    by_cases hq : q = r
    · exact if_pos hq
    · exact absurd (if_neg hq) h

theorem RegMarks.setReg8 (s : State) (r : Reg8) (v : Byte) : RegMarks s (s.setReg8 r v) where
  bytes q := by
    rw [setReg8_unsetByteReads]
    exact (ite_eq_or_eq _ _ _).symm
  wholes q hq := .inl (setReg8_unsetWordReads s r v hq)
  byteSet q h := by
    rw [setReg8_reg8] at h
    rw [setReg8_unsetByteReads]
    by_cases hq : q = r
    · exact if_pos hq
    · exact absurd (if_neg hq) h
  wholeSet q hq h := by
    have hne : q ≠ Reg8.parent r := fun e => parent_notMem_wholeRegs r (e ▸ hq)
    rw [setReg8_reg16] at h
    exact absurd (if_neg hne) h

theorem PlaceMarks.writePlace (s : State) (p : Place) (b : Byte) : PlaceMarks s (s.writePlace p b) where
  places q := by
    rw [placeReads_writePlace]
    exact (ite_eq_or_eq _ _ _).symm
  placeSet q h := by
    rw [readPlace_writePlace'] at h
    rw [placeReads_writePlace]
    by_cases hq : q = p ∧ q.writable = true
    · exact if_pos hq
    · exact absurd (if_neg hq) h

/-! ### Updates -/

theorem Update.regMarks {W : SReg → Bool} {a b : State} (h : Update W a b) : RegMarks a b := by
  cases h with
  | setReg16 r v => exact .setReg16 a r v
  | setReg8 r v => exact .setReg8 a r v
  | _ => exact .of_eq (by simp) (by simp)

theorem Update.placeMarks {W : SReg → Bool} {a b : State} (h : Update W a b) : PlaceMarks a b := by
  cases h with
  | busWrite8 p v => exact .writePlace a _ v
  | _ => exact .of_eq (fun _ => by simp) (fun _ => by simp)

theorem Reaches.regMarks {W : SReg → Bool} {s t : State} (h : Reaches W s t) : RegMarks s t :=
  h.keeps (fun hab ha => ha.trans hab.regMarks) (.of_eq rfl rfl)

theorem Reaches.placeMarks {W : SReg → Bool} {s t : State} (h : Reaches W s t) : PlaceMarks s t :=
  h.keeps (fun hab ha => ha.trans hab.placeMarks) (.of_eq (fun _ => rfl) (fun _ => rfl))

/-- A word whose reads recorded nothing records nothing. -/
theorem RegMarks.words {s t : State} (h : RegMarks s t) (r : Reg16) (hr : unsetWordReads s r = []) :
    unsetWordReads t r = [] := by
  have hbyte (q : Reg8) (hq : unsetByteReads s q = []) : unsetByteReads t q = [] := by
    rcases h.bytes q with e | e
    · rw [e, hq]
    · exact e
  have hwhole (hm : r ∈ wholeRegs) : unsetWordReads t r = [] := by
    rcases h.wholes r hm with e | e
    · rw [e, hr]
    · exact e
  cases r with
  | sp | bp | si | di => exact hwhole (by decide)
  | ax | cx | dx | bx =>
    obtain ⟨hlo, hhi⟩ := List.append_eq_nil_iff.mp hr
    exact List.append_eq_nil_iff.mpr ⟨hbyte _ hlo, hbyte _ hhi⟩

/-! ## The writes of MOV (O46) -/

theorem movGvEv_reg (s : State) (r p : Reg16) : Answers (.movGvEv r (.reg p)) s fun t =>
    t.faults = s.faults ++ unsetWordReads s p ∧ t.reg16 r = s.reg16 p ∧ t.unset.get r = ⟨false, false⟩
      ∧ unsetWordReads t r = [] := by
  refine ⟨_, rfl, ?_, ?_, ?_, ?_⟩
  · simp [mov16_faults, addr16, srcAddr16, srcValue16, value16, entriesOf]
  · simp [State.mov16, State.fetchSrc16, State.loc16, State.write16, State.src16, State.rm16, State.read16]
  · simp [State.mov16, State.loc16, State.write16]
  · have h := setReg16_unsetWordReads (s.fetchSrc16 (.reg r) (.rm (.reg p))) r r (s.reg16 p)
    rwa [if_pos rfl] at h

theorem movGbEb_reg (s : State) (g q : Reg8) : Answers (.movGbEb g (.reg q)) s fun t =>
    t.faults = s.faults ++ unsetByteReads s q ∧ t.reg8 g = s.reg8 q ∧ unsetByteReads t g = [] := by
  refine ⟨_, rfl, ?_, ?_, ?_⟩
  · simp [mov8_faults, addr8, srcAddr8, srcValue8, value8, entriesOf]
  · simp [State.mov8, State.fetchSrc8, State.loc8, State.write8, State.src8, State.rm8, State.read8]
  · have h := setReg8_unsetByteReads (s.fetchSrc8 (.reg g) (.rm (.reg q))) g g (s.reg8 q)
    rwa [if_pos rfl] at h

theorem movAlOb_answers (s : State) (off : Word) : Answers (.movAlOb off) s fun t =>
    t.reg8 .al = s.mem8 (sourceSeg s) off
      ∧ t.faults = s.faults ++ placeReads s (s.locate (phys (sourceSeg s) off)) := by
  refine ⟨_, rfl, ?_, ?_⟩
  · simp [segOr_ds]
  · simp [noteMem8_ds, entriesOf, State.setReg8]

/-- A stored RAM byte is listed where no byte stands for an unlisted cell (R80). -/
theorem mem_set (m : Memory) (i : Nat) (v : Byte) : (i, v) ∈ Memory.set m i v := by
  induction m with
  | nil => exact List.mem_singleton_self _
  | cons c m ih =>
    unfold Memory.set
    split_ifs
    · exact List.mem_cons_self
    · exact List.mem_cons_self
    · exact List.mem_cons_of_mem _ ih

theorem writeMem8_lists {s : State} {sg off : Word} {v : Byte} {i : Nat} (hl : s.locate (phys sg off) = .ram i)
    (hr : s.cfg.resetRam = .unset) : (i, v) ∈ (s.writeMem8 sg off v).ram := by
  have hram : (s.writeMem8 sg off v).ram = Memory.put (ramUnlisted s.cfg) s.ram i v := by
    rw [State.writeMem8, State.busWrite8, hl]
    rfl
  have hunl : ramUnlisted s.cfg = none := by rw [ramUnlisted, hr]
  rw [hram, hunl]
  exact mem_set _ _ _

/-- Settles O46: the fault record is that of `exec_records`; the marks are kept by every update that an instruction is
made of. -/
theorem unsetReadsAreRecorded : Obligations.UnsetReadsAreRecorded := by
  unfold Obligations.UnsetReadsAreRecorded
  refine ⟨?_, enter_faults, ?_⟩
  · intro i s
    obtain ⟨t, ht, hrec⟩ := exec_records i s
    obtain ⟨u, hu, hreach⟩ := exec_reaches i s
    obtain rfl : u = t := by rw [ht] at hu; injection hu with e; exact e.symm
    have hreg := hreach.regMarks
    have hplace := hreach.placeMarks
    exact ⟨u, hu, hrec, hreg.bytes, hreg.words, hreg.byteSet, hreg.wholeSet, hplace.places, hplace.placeSet⟩
  · intro s g q r p off
    exact ⟨movGvEv_reg s r p, movGbEb_reg s g q, movAlOb_answers s off,
      fun sg v i hl hr => ⟨_, writeMem8_lists hl hr, rfl⟩⟩

end Sys2Proof.Machine

namespace Sys2Proof.Machine

/-! ## Word accesses and stores (O31, O32) -/

/-- The segment shifted by 4 and the offset, in 20 bits (R101). -/
theorem phys_toNat (sg off : Word) : (phys sg off).toNat = (sg.toNat * 16 + off.toNat) % 2 ^ 20 := by
  have hsg : sg.toNat < 2 ^ 16 := sg.isLt
  have hoff : off.toNat < 2 ^ 16 := off.isLt
  have hshift : (sg.setWidth 20 <<< 4).toNat = sg.toNat * 16 := by
    rw [BitVec.toNat_shiftLeft, BitVec.toNat_setWidth, Nat.shiftLeft_eq]
    omega
  have hext : (off.setWidth 20).toNat = off.toNat := by
    rw [BitVec.toNat_setWidth]
    omega
  rw [phys, BitVec.toNat_add, hshift, hext]

/-- A word read: the byte at the offset is the low one (R105). -/
theorem mem16_toNat (s : State) (sg off : Word) : (s.mem16 sg off).toNat =
    (s.busRead8 (phys sg off)).toNat + 256 * (s.busRead8 (phys sg (off + 1#16))).toNat := by
  have happ : (s.mem16 sg off).toNat = (s.mem8 sg (off + 1#16)).toNat * 2 ^ 8 + (s.mem8 sg off).toNat := append_toNat ..
  rw [happ, State.mem8, State.mem8]
  omega

theorem Untouched.refl (s : State) : Untouched s s := by constructor <;> rfl

theorem writePlace_of_not_writable (s : State) {p : Place} (b : Byte) (h : p.writable = false) : s.writePlace p b = s := by
  cases p with
  | ram i | save i => cases h
  | rom o | openBus => rfl

/-- A store through one address is read back through each address that names the same storage byte (R124). -/
theorem busWrite8_busRead8_alias (s : State) {a c : Phys} (b : Byte) (hw : (s.locate a).writable = true)
    (hc : s.locate c = s.locate a) : (s.busWrite8 a b).busRead8 c = b := by
  rw [busWrite8_busRead8, if_pos ⟨hc, hw⟩]

theorem busWrite8_busRead8_other (s : State) {a c : Phys} (b : Byte) (hc : s.locate c ≠ s.locate a) :
    (s.busWrite8 a b).busRead8 c = s.busRead8 c := by
  rw [busWrite8_busRead8, if_neg fun h => hc h.1]

/-- Settles O31: the address and the word read as numbers, and the word store of `stored16_writeMem16`. -/
theorem wordAccess : Obligations.WordAccess := by
  unfold Obligations.WordAccess
  intro s sg off v
  exact ⟨phys_toNat sg off, mem16_toNat s sg off, stored16_writeMem16 (Untouched.refl s) sg off v⟩

/-- Settles O32: a bus write is a write of the storage byte that the address names, and what addresses name is unchanged by
it. -/
theorem aliasedStores : Obligations.AliasedStores := by
  unfold Obligations.AliasedStores
  intro s a c b
  exact ⟨busWrite8_busRead8_alias s b, busWrite8_busRead8_other s b, fun p => readPlace_writePlace' s (s.locate a) p b,
    fun p => placeReads_writePlace s (s.locate a) p b, writePlace_of_not_writable s b⟩

end Sys2Proof.Machine

namespace Sys2Proof

/-! ## What decodes is the encoding of what it decodes to (O42) -/

/-- Every entry of a list satisfies `P` at its place, counted from `n`. -/
def Placed {α : Type} (P : Nat → α → Prop) (n : Nat) (l : List α) : Prop := ∀ p ∈ l.zipIdx n, P p.2 p.1

section Placed

variable {α : Type} {P : Nat → α → Prop} {n : Nat} {a : α} {l k : List α}

theorem placed_nil : Placed P n [] := fun _ h => nomatch h

theorem placed_cons : Placed P n (a :: l) ↔ P n a ∧ Placed P (n + 1) l := by simp [Placed]

theorem Placed.append (hl : Placed P n l) (hk : Placed P (n + l.length) k) : Placed P n (l ++ k) := by
  rw [Placed, List.zipIdx_append, List.forall_mem_append]
  exact ⟨hl, hk⟩

theorem Placed.getD {d : α} (h : Placed P 0 l) (i : Nat) (hd : P i d) : P i (l.getD i d) := by
  rw [List.getD_eq_getElem?_getD]
  cases hi : l[i]? with
  | none => exact hd
  | some a => exact h (a, i) (List.mem_zipIdx_iff_getElem?.mpr hi)

end Placed

/-- The instruction's bytes, and whether it is well-formed. -/
structure Instr.HasCode (i : Instr) (wf : Bool) (bytes : List Byte) : Prop where
  wf_eq : i.wf = wf
  encode_eq : encode i = bytes

/-- The member of a group at opcode `b` and reg field `reg`: the bytes of its instructions, which are well-formed where their
operands are (R168, R172). -/
def GroupEntry.Encodes (b : Byte) (reg : BitVec 3) : GroupEntry → Prop
  | .gap => True
  | .e8 f => ∀ e, (f e).HasCode e.wf (b :: encodeE8 reg e)
  | .e16 f => ∀ e, (f e).HasCode e.wf (b :: encodeE16 reg e)
  | .m f => ∀ m, (f m).HasCode m.wf (b :: encodeMem reg m)
  | .e8ib f => ∀ e v, (f e v).HasCode e.wf (b :: (encodeE8 reg e ++ [v]))
  | .e16ib f => ∀ e v, (f e v).HasCode e.wf (b :: (encodeE16 reg e ++ [v]))
  | .e16iw f => ∀ e w, (f e w).HasCode e.wf (b :: (encodeE16 reg e ++ wordBytes w))

/-- The members of a group at opcode `b` are those of their reg fields. -/
def GroupEncodes (b : Byte) (l : List GroupEntry) : Prop := Placed (fun n g => g.Encodes b (BitVec.ofNat 3 n)) 0 l

/-- The entry at opcode `b`: the bytes of its instructions, which are well-formed where their operands are (R168, R171). -/
def OpEntry.Encodes (b : Byte) : OpEntry → Prop
  | .gap => True
  | .plain i => i.HasCode true [b]
  | .ib f => ∀ v, (f v).HasCode true [b, v]
  | .iw f => ∀ w, (f w).HasCode true (b :: wordBytes w)
  | .iwib f => ∀ w v, (f w v).HasCode true (b :: (wordBytes w ++ [v]))
  | .far f => ∀ v w, (f v w).HasCode true (b :: (wordBytes v ++ wordBytes w))
  | .eg8 f => ∀ e g, (f e g).HasCode e.wf (b :: encodeE8 g.bits e)
  | .eg16 f => ∀ e g, (f e g).HasCode e.wf (b :: encodeE16 g.bits e)
  | .mg16 f => ∀ m g, (f m g).HasCode m.wf (b :: encodeMem g.bits m)
  | .eg16ib f => ∀ e g v, (f e g v).HasCode e.wf (b :: (encodeE16 g.bits e ++ [v]))
  | .eg16iw f => ∀ e g w, (f e g w).HasCode e.wf (b :: (encodeE16 g.bits e ++ wordBytes w))
  | .esc f => ∀ x e, (f x e).HasCode e.wf (b :: encodeE16 x e)
  | .group l => GroupEncodes b l

/-- The entries of a part of the opcode map from opcode `n` on are those of their opcodes. -/
def RowEncodes (n : Nat) (l : List OpEntry) : Prop := Placed (fun n e => e.Encodes (BitVec.ofNat 8 n)) n l

theorem rowEncodes_nil {n : Nat} : RowEncodes n [] := placed_nil

theorem rowEncodes_cons {n : Nat} {e : OpEntry} {l : List OpEntry} :
    RowEncodes n (e :: l) ↔ e.Encodes (BitVec.ofNat 8 n) ∧ RowEncodes (n + 1) l := placed_cons

/-- The rows without groups. -/
theorem plainRows_encode : RowEncodes 0x00 opcodeRow0 ∧ RowEncodes 0x10 opcodeRow1 ∧ RowEncodes 0x20 opcodeRow2
    ∧ RowEncodes 0x30 opcodeRow3 ∧ RowEncodes 0x40 opcodeRow4 ∧ RowEncodes 0x50 opcodeRow5 ∧ RowEncodes 0x60 opcodeRow6
    ∧ RowEncodes 0x70 opcodeRow7 ∧ RowEncodes 0x90 opcodeRow9 ∧ RowEncodes 0xA0 opcodeRowA ∧ RowEncodes 0xB0 opcodeRowB
    ∧ RowEncodes 0xE0 opcodeRowE := by
  simp only [opcodeRow0, opcodeRow1, opcodeRow2, opcodeRow3, opcodeRow4, opcodeRow5, opcodeRow6, opcodeRow7, opcodeRow9,
    opcodeRowA, opcodeRowB, opcodeRowE, rowEncodes_cons, rowEncodes_nil, OpEntry.Encodes, and_true, true_and]
  and_intros
  all_goals intros; exact ⟨rfl, rfl⟩

/-- The rows with groups (R172). -/
theorem groupRows_encode : RowEncodes 0x80 opcodeRow8 ∧ RowEncodes 0xC0 opcodeRowC ∧ RowEncodes 0xD0 opcodeRowD
    ∧ RowEncodes 0xF0 opcodeRowF := by
  simp only [opcodeRow8, opcodeRowC, opcodeRowD, opcodeRowF, rowEncodes_cons, rowEncodes_nil, OpEntry.Encodes, and_true,
    true_and, GroupEncodes, placed_cons, placed_nil, GroupEntry.Encodes, grp1_80, grp1_81, grp1_82, grp1_83, grpMovFromSreg,
    grpMovToSreg, grp1a, grp2_C0, grp2_C1, grp11_C6, grp11_C7, grp2_D0, grp2_D1, grp2_D2, grp2_D3, grp3_F6, grp3_F7, grp4,
    grp5]
  and_intros
  all_goals intros; exact ⟨rfl, rfl⟩

theorem opcodeMap_rowEncodes : RowEncodes 0x00 opcodeMap := by
  obtain ⟨h0, h1, h2, h3, h4, h5, h6, h7, h9, hA, hB, hE⟩ := plainRows_encode
  obtain ⟨h8, hC, hD, hF⟩ := groupRows_encode
  simp only [opcodeMap, List.append_assoc]
  exact h0.append <| h1.append <| h2.append <| h3.append <| h4.append <| h5.append <| h6.append <| h7.append <|
    h8.append <| h9.append <| hA.append <| hB.append <| hC.append <| hD.append <| hE.append hF

/-- Every entry of the opcode map is that of its opcode. -/
theorem opcodeMap_encodes (b : Byte) : (opcodeMap.getD b.toNat .gap).Encodes b := by
  have h : (opcodeMap.getD b.toNat .gap).Encodes (BitVec.ofNat 8 b.toNat) := opcodeMap_rowEncodes.getD b.toNat trivial
  rwa [BitVec.ofNat_toNat, BitVec.setWidth_eq] at h

/-- Every member of an encoded group is that of its reg field. -/
theorem GroupEncodes.getD {b : Byte} {l : List GroupEntry} (h : GroupEncodes b l) (reg : BitVec 3) :
    (l.getD reg.toNat .gap).Encodes b reg := by
  have h : (l.getD reg.toNat .gap).Encodes b (BitVec.ofNat 3 reg.toNat) := Placed.getD h reg.toNat trivial
  rwa [BitVec.ofNat_toNat, BitVec.setWidth_eq] at h

/-! ### What the decoder has read where it answers an instruction -/

section Inversion

variable {b : Byte} {bs rest : List Byte} {i : Instr}

theorem field_e8_encode (reg : BitVec 3) (x : RmField) : encodeE8 reg x.e8 = encodeField reg x := by
  cases x with
  | reg n => simp [RmField.e8, encodeE8, encodeField, reg8_bits_ofBits]
  | mem m => rfl

theorem field_e16_encode (reg : BitVec 3) (x : RmField) : encodeE16 reg x.e16 = encodeField reg x := by
  cases x with
  | reg n => simp [RmField.e16, encodeE16, encodeField, reg16_bits_ofBits]
  | mem m => rfl

theorem field_e8_wf (x : RmField) : x.e8.wf = x.wf := by cases x <;> rfl

theorem field_e16_wf (x : RmField) : x.e16.wf = x.wf := by cases x <;> rfl

theorem withIb_instr {f : Byte → Instr} (h : withIb bs f = .instr i rest) : ∃ v, bs = v :: rest ∧ f v = i := by
  cases bs with
  | nil => cases h
  | cons v bs =>
    obtain ⟨hi, rfl⟩ := Decoded.instr.inj h
    exact ⟨v, rfl, hi⟩

theorem withIw_instr {f : Word → Instr} (h : withIw bs f = .instr i rest) : ∃ w, bs = wordBytes w ++ rest ∧ f w = i := by
  match bs, h with
  | lo :: hi :: _, h =>
    obtain ⟨hi', rfl⟩ := Decoded.instr.inj h
    exact ⟨leWord lo hi, by rw [wordBytes_leWord]; rfl, hi'⟩

theorem withModRM_instr {k : BitVec 3 → RmField → Nat → List Byte → Decoded} (h : withModRM bs k = .instr i rest) :
    ∃ reg x len tail, x.wf = true ∧ bs = encodeField reg x ++ tail ∧ k reg x len tail = .instr i rest := by
  unfold withModRM at h
  split at h
  · rename_i reg x tail hp
    obtain ⟨hwf, hbs⟩ := parseModRM_some hp
    exact ⟨reg, x, _, tail, hwf, hbs, h⟩
  · cases h

/-- What a group member answers from a field and the bytes after it is encoded by the opcode, the field and those bytes. -/
theorem decodeGroup_instr {g : GroupEntry} {reg : BitVec 3} (hg : g.Encodes b reg) {len : Nat} {x : RmField}
    (hx : x.wf = true) (h : decodeGroup g len x bs = .instr i rest) :
    i.wf = true ∧ b :: (encodeField reg x ++ bs) = encode i ++ rest := by
  cases g with
  | gap => cases h
  | e8 f =>
    obtain ⟨rfl, rfl⟩ := Decoded.instr.inj h
    obtain ⟨hwf, henc⟩ := hg x.e8
    exact ⟨by rw [hwf, field_e8_wf, hx], by rw [henc, field_e8_encode]; rfl⟩
  | e16 f =>
    obtain ⟨rfl, rfl⟩ := Decoded.instr.inj h
    obtain ⟨hwf, henc⟩ := hg x.e16
    exact ⟨by rw [hwf, field_e16_wf, hx], by rw [henc, field_e16_encode]; rfl⟩
  | m f =>
    cases x with
    | reg n => cases h
    | mem m =>
      obtain ⟨rfl, rfl⟩ := Decoded.instr.inj h
      obtain ⟨hwf, henc⟩ := hg m
      exact ⟨hwf.trans hx, by rw [henc]; rfl⟩
  | e8ib f =>
    obtain ⟨v, rfl, rfl⟩ := withIb_instr h
    obtain ⟨hwf, henc⟩ := hg x.e8 v
    exact ⟨by rw [hwf, field_e8_wf, hx], by simp [henc, field_e8_encode]⟩
  | e16ib f =>
    obtain ⟨v, rfl, rfl⟩ := withIb_instr h
    obtain ⟨hwf, henc⟩ := hg x.e16 v
    exact ⟨by rw [hwf, field_e16_wf, hx], by simp [henc, field_e16_encode]⟩
  | e16iw f =>
    obtain ⟨w, rfl, rfl⟩ := withIw_instr h
    obtain ⟨hwf, henc⟩ := hg x.e16 w
    exact ⟨by rw [hwf, field_e16_wf, hx], by simp [henc, field_e16_encode]⟩

/-- What an entry answers from the bytes after its opcode is encoded by the opcode and those bytes. -/
theorem decodeEntry_instr {e : OpEntry} (he : e.Encodes b) (h : decodeEntry e bs = .instr i rest) :
    i.wf = true ∧ b :: bs = encode i ++ rest := by
  unfold decodeEntry at h
  cases e with
  | gap => cases h
  | plain j =>
    obtain ⟨rfl, rfl⟩ := Decoded.instr.inj h
    obtain ⟨hwf, henc⟩ := he
    exact ⟨hwf, by rw [henc]; rfl⟩
  | ib f =>
    obtain ⟨v, rfl, rfl⟩ := withIb_instr h
    obtain ⟨hwf, henc⟩ := he v
    exact ⟨hwf, by rw [henc]; rfl⟩
  | iw f =>
    obtain ⟨w, rfl, rfl⟩ := withIw_instr h
    obtain ⟨hwf, henc⟩ := he w
    exact ⟨hwf, by rw [henc]; rfl⟩
  | iwib f =>
    match bs, h with
    | lo :: hi :: v :: _, h =>
      obtain ⟨rfl, rfl⟩ := Decoded.instr.inj h
      obtain ⟨hwf, henc⟩ := he (leWord lo hi) v
      exact ⟨hwf, by rw [henc, wordBytes_leWord]; rfl⟩
  | far f =>
    match bs, h with
    | p :: q :: r :: t :: _, h =>
      obtain ⟨rfl, rfl⟩ := Decoded.instr.inj h
      obtain ⟨hwf, henc⟩ := he (leWord p q) (leWord r t)
      exact ⟨hwf, by rw [henc, wordBytes_leWord, wordBytes_leWord]; rfl⟩
  | eg8 f =>
    obtain ⟨reg, x, _, tail, hx, rfl, hk⟩ := withModRM_instr h
    obtain ⟨rfl, rfl⟩ := Decoded.instr.inj hk
    obtain ⟨hwf, henc⟩ := he x.e8 (Reg8.ofBits reg)
    exact ⟨by rw [hwf, field_e8_wf, hx], by rw [henc, reg8_bits_ofBits, field_e8_encode]; rfl⟩
  | eg16 f =>
    obtain ⟨reg, x, _, tail, hx, rfl, hk⟩ := withModRM_instr h
    obtain ⟨rfl, rfl⟩ := Decoded.instr.inj hk
    obtain ⟨hwf, henc⟩ := he x.e16 (Reg16.ofBits reg)
    exact ⟨by rw [hwf, field_e16_wf, hx], by rw [henc, reg16_bits_ofBits, field_e16_encode]; rfl⟩
  | mg16 f =>
    obtain ⟨reg, x, _, tail, hx, rfl, hk⟩ := withModRM_instr h
    cases x with
    | reg n => cases hk
    | mem m =>
      obtain ⟨rfl, rfl⟩ := Decoded.instr.inj hk
      obtain ⟨hwf, henc⟩ := he m (Reg16.ofBits reg)
      exact ⟨hwf.trans hx, by rw [henc, reg16_bits_ofBits]; rfl⟩
  | eg16ib f =>
    obtain ⟨reg, x, _, tail, hx, rfl, hk⟩ := withModRM_instr h
    obtain ⟨v, rfl, rfl⟩ := withIb_instr hk
    obtain ⟨hwf, henc⟩ := he x.e16 (Reg16.ofBits reg) v
    exact ⟨by rw [hwf, field_e16_wf, hx], by simp [henc, reg16_bits_ofBits, field_e16_encode]⟩
  | eg16iw f =>
    obtain ⟨reg, x, _, tail, hx, rfl, hk⟩ := withModRM_instr h
    obtain ⟨w, rfl, rfl⟩ := withIw_instr hk
    obtain ⟨hwf, henc⟩ := he x.e16 (Reg16.ofBits reg) w
    exact ⟨by rw [hwf, field_e16_wf, hx], by simp [henc, reg16_bits_ofBits, field_e16_encode]⟩
  | esc f =>
    obtain ⟨reg, x, _, tail, hx, rfl, hk⟩ := withModRM_instr h
    obtain ⟨rfl, rfl⟩ := Decoded.instr.inj hk
    obtain ⟨hwf, henc⟩ := he reg x.e16
    exact ⟨by rw [hwf, field_e16_wf, hx], by rw [henc, field_e16_encode]; rfl⟩
  | group l =>
    obtain ⟨reg, x, len, tail, hx, rfl, hk⟩ := withModRM_instr h
    exact decodeGroup_instr (GroupEncodes.getD he reg) hx hk

end Inversion

/-- Where bytes decode to an instruction, it is well-formed and the bytes begin with its encoding (R150, R155). -/
theorem decode_instr {bs rest : List Byte} {i : Instr} (h : decode bs = .instr i rest) :
    i.wf = true ∧ bs = encode i ++ rest := by
  cases bs with
  | nil => cases h
  | cons b bs => exact decodeEntry_instr (opcodeMap_encodes b) h

/-- Settles O41, by `decode_encode`: one lemma for each kind of operand bytes. -/
theorem decodeOfEncode : Obligations.DecodeOfEncode := by
  unfold Obligations.DecodeOfEncode
  exact decode_encode

/-- Settles O42: each entry of the opcode map is the encoding of its instructions, and the decoder reads by the entry. -/
theorem encodeOfDecode : Obligations.EncodeOfDecode := by
  unfold Obligations.EncodeOfDecode
  exact fun _ _ _ => decode_instr

end Sys2Proof

namespace Sys2Proof

/-! ## Decode gaps (O38) -/

/-- The group has no member for this reg field (R180). -/
def GroupEntry.isGap : GroupEntry → Bool
  | .gap => true
  | _ => false

theorem GroupEntry.eq_gap {g : GroupEntry} (h : g.isGap = true) : g = .gap := by
  cases g with
  | gap => rfl
  | _ => cases h

/-- An opcode with operands G and memory does not take a register (R180). -/
theorem decode_mg16_reg {b : Byte} {f : Mem → Reg16 → Instr} (hb : opcodeMap.getD b.toNat .gap = .mg16 f) (reg : BitVec 3)
    (r : Reg16) (rest : List Byte) : decode (b :: (encodeE16 reg (.reg r) ++ rest)) = .gap .registerForm 2 := by
  rw [decode, hb, encodeE16_eq, decodeEntry, withModRM_encodeField _ _ _ rfl]
  rfl

/-- A group member with a memory operand does not take a register (R180). -/
theorem decode_group_m_reg {b : Byte} {l : List GroupEntry} {f : Mem → Instr} {reg : BitVec 3}
    (hb : opcodeMap.getD b.toNat .gap = .group l) (hl : l.getD reg.toNat .gap = .m f) (r : Reg16) (rest : List Byte) :
    decode (b :: (encodeE16 reg (.reg r) ++ rest)) = .gap .registerForm 2 := by
  rw [encodeE16_eq, decode_group hb _ _ _ rfl, hl]
  rfl

namespace Machine

/-- The group forms outside the decode table are the places of their groups without a member. -/
theorem group_of_groupGap {b : Byte} {reg : BitVec 3} (h : groupGap b reg = true) :
    ∃ l, opcodeMap.getD b.toNat .gap = .group l ∧ (l.getD reg.toNat .gap).isGap = true := by
  simp only [groupGap, Bool.or_eq_true, decide_eq_true_eq, List.mem_cons, List.not_mem_nil, or_false] at h
  rcases h with (((((⟨hb, hr⟩ | ⟨hb, hr⟩) | ⟨hb, hr⟩) | ⟨hb, hr⟩) | ⟨hb, hr⟩) | ⟨hb, hr⟩) | ⟨hb, hr⟩
  · rcases hb with rfl | rfl | rfl <;> exact ⟨_, rfl, by revert reg; decide⟩
  · rcases hb with rfl | rfl | rfl | rfl | rfl | rfl <;> exact ⟨_, rfl, by rw [hr]; rfl⟩
  · rcases hb with rfl | rfl <;> exact ⟨_, rfl, by rw [hr]; rfl⟩
  all_goals subst hb; exact ⟨_, rfl, by revert reg; decide⟩

/-- Settles O38: an opcode without an entry, a group without a member, and a memory operand with a register in its place. -/
theorem decodeGaps : Obligations.DecodeGaps := by
  unfold Obligations.DecodeGaps
  refine ⟨?opcode, ?group, ?registerForm⟩
  case opcode =>
    intro b rest hb
    simp only [List.mem_cons, List.not_mem_nil, or_false] at hb
    rcases hb with rfl | rfl | rfl | rfl | rfl | rfl | rfl | rfl <;> rfl
  case group =>
    intro b reg x rest hx hgap
    obtain ⟨l, hl, hmem⟩ := group_of_groupGap hgap
    rw [encodeE16_eq, decode_group hl _ _ _ (by rwa [field_wf16]), GroupEntry.eq_gap hmem]
    rfl
  case registerForm =>
    intro b reg r rest hb
    simp only [List.mem_cons, List.not_mem_nil, or_false] at hb
    rcases hb with hb | ⟨rfl, rfl | rfl⟩
    · obtain ⟨f, hf⟩ : ∃ f, opcodeMap.getD b.toNat .gap = .mg16 f := by
        rcases hb with rfl | rfl | rfl | rfl <;> exact ⟨_, rfl⟩
      exact decode_mg16_reg hf reg r rest
    · exact decode_group_m_reg rfl rfl r rest
    · exact decode_group_m_reg rfl rfl r rest

/-- Settles O40: the decoder computes. -/
theorem decodedWords : Obligations.DecodedWords := by
  unfold Obligations.DecodedWords
  exact ⟨rfl, rfl, rfl, rfl, rfl, rfl, rfl, rfl⟩

/-! ## Effective addresses (O19) -/

/-- A displacement as an integer: a byte is signed (R164). -/
def dispInt : Disp → Int
  | .none => 0
  | .d8 k => k.toInt
  | .d16 k => k.toNat

theorem toNat_emod_word (w : Word) : (w.toNat : Int) % 65536 = w.toNat := by
  have := w.isLt
  omega

theorem dispWord_toNat (d : Disp) : ((dispWord d).toNat : Int) = dispInt d % 65536 := by
  cases d with
  | none => rfl
  | d8 k =>
    have h : (sextByte k).toInt = k.toInt := BitVec.toInt_signExtend_of_le (by decide)
    rw [BitVec.toInt_eq_toNat_cond] at h
    have := (sextByte k).isLt
    simp only [dispWord, dispInt]
    omega
  | d16 k => exact (toNat_emod_word k).symm

theorem baseSum_toNat (s : State) (b : Base) :
    ((s.baseSum b).toNat : Int) = ((baseRegs b).map fun r => ((s.reg16 r).toNat : Int)).sum % 65536 := by
  cases b with
  | bxsi | bxdi | bpsi | bpdi => simp [State.baseSum, baseRegs]
  | si | di | bp | bx => simp [State.baseSum, baseRegs, toNat_emod_word]

theorem eaOff_based_toNat (s : State) (b : Base) (d : Disp) : ((s.eaOff (.based b d)).toNat : Int)
    = (((baseRegs b).map fun r => ((s.reg16 r).toNat : Int)).sum + dispInt d) % 65536 := by
  rw [State.eaOff, BitVec.toNat_add, Int.natCast_emod, Int.natCast_add, baseSum_toNat, dispWord_toNat]
  exact (Int.add_emod _ _ _).symm

/-- The segment of an overridable operand, by whether it is overridden (R153). -/
theorem segOr_eq (s : State) (dflt : SReg) :
    s.segOr dflt = match s.cur.segOvr with | some r => s.sreg r | none => s.sreg dflt := by
  unfold State.segOr
  cases s.cur.segOvr <;> rfl

theorem sreg_defaultSeg (s : State) (b : Base) (d : Disp) :
    s.sreg (defaultSeg (.based b d)) = if .bp ∈ baseRegs b then s.segs.ss else s.segs.ds := by
  cases b <;> rfl

/-- Settles O19: the offset is a sum of words, read as integers; the segment is the override or the base's default. -/
theorem effectiveAddresses : Obligations.EffectiveAddresses := by
  unfold Obligations.EffectiveAddresses
  intro s b d off
  refine ⟨rfl, segOr_eq s .ds, ?_, ?_, rfl, rfl, rfl, rfl, rfl, rfl, rfl, rfl⟩
  · rw [eaOff_based_toNat]
    cases d <;> rfl
  · have h := segOr_eq s (defaultSeg (.based b d))
    rw [sreg_defaultSeg] at h
    exact h

end Machine

end Sys2Proof

namespace Sys2Proof.Machine

/-! ## Prefixes (R151, R152) -/

/-- Settles O30: each meaning is the record that the statement writes out. -/
theorem prefixesAndNoOperations : Obligations.PrefixesAndNoOperations := by
  unfold Obligations.PrefixesAndNoOperations
  exact ⟨fun _ => ⟨rfl, rfl, rfl, rfl, rfl, rfl, rfl⟩, fun _ _ _ _ => ⟨rfl, rfl, rfl, rfl⟩⟩

/-- The bytes of the prefixes (R151). -/
def prefixBytes : List Byte := [0x26#8, 0x2E#8, 0x36#8, 0x3E#8, 0xF0#8, 0xF2#8, 0xF3#8]

/-- The prefixes are encoded by these bytes alone. -/
theorem encode_prefix {p : Instr} (hp : p.isPrefix = true) : ∃ b ∈ prefixBytes, encode p = [b] := by
  cases p with
  | pfxEs | pfxCs | pfxSs | pfxDs | pfxLock | pfxRepne | pfxRep => exact ⟨_, by decide, rfl⟩
  | _ => cases hp

theorem prefix_wf {p : Instr} (hp : p.isPrefix = true) : p.wf = true := by
  cases p with
  | pfxEs | pfxCs | pfxSs | pfxDs | pfxLock | pfxRepne | pfxRep => rfl
  | _ => cases hp

theorem prefix_len {p : Instr} (hp : p.isPrefix = true) : p.len = 1 := by
  obtain ⟨b, -, hb⟩ := encode_prefix hp
  rw [Instr.len, hb]
  rfl

/-- Each of these bytes encodes one of the prefixes. -/
theorem prefix_of_byte {b : Byte} (hb : b ∈ prefixBytes) : ∃ p : Instr, p.isPrefix = true ∧ encode p = [b] := by
  simp only [prefixBytes, List.mem_cons, List.not_mem_nil, or_false] at hb
  rcases hb with rfl | rfl | rfl | rfl | rfl | rfl | rfl
  · exact ⟨.pfxEs, rfl, rfl⟩
  · exact ⟨.pfxCs, rfl, rfl⟩
  · exact ⟨.pfxSs, rfl, rfl⟩
  · exact ⟨.pfxDs, rfl, rfl⟩
  · exact ⟨.pfxLock, rfl, rfl⟩
  · exact ⟨.pfxRepne, rfl, rfl⟩
  · exact ⟨.pfxRep, rfl, rfl⟩

/-- The decode state `c` after the listed prefixes: those that are read last win. -/
def afterPrefixes (c : StepCtx) (ps : List Instr) : StepCtx where
  segOvr := (ps.filterMap overrideOf).getLast?.or c.segOvr
  rep := (ps.filterMap repeatOf).getLast?.or c.rep
  lock := ps.contains .pfxLock || c.lock
  pfxLen := c.pfxLen + ps.length
  entered := c.entered

theorem afterPrefixes_nil (c : StepCtx) : afterPrefixes c [] = c := by simp [afterPrefixes]

theorem getLast?_filterMap_cons {α β : Type} (f : α → Option β) (a : α) (l : List α) (d : Option β) :
    ((a :: l).filterMap f).getLast?.or d = (l.filterMap f).getLast?.or ((f a).or d) := by
  cases h : f a with
  | none => simp [h]
  | some b => cases hl : l.filterMap f <;> simp [h, hl, List.getLast?_cons]

/-- Prefixes are read one by one. -/
theorem afterPrefixes_cons (c : StepCtx) (p : Instr) (ps : List Instr) :
    afterPrefixes c (p :: ps) = afterPrefixes (afterPrefixes c [p]) ps := by
  simp only [afterPrefixes, getLast?_filterMap_cons, List.filterMap_nil, List.getLast?_nil, Option.none_or,
    List.contains_cons, List.contains_nil, Bool.or_false, Bool.or_assoc, Bool.or_left_comm, List.length_cons,
    List.length_nil, Nat.zero_add, Nat.add_assoc, Nat.add_comm 1 ps.length]

theorem afterPrefixes_idle (ps : List Instr) : afterPrefixes {} ps = prefixCtx ps := by simp [afterPrefixes, prefixCtx]

/-- What the prefixes do (R455, R456, R458). -/
theorem exec_prefix {p : Instr} (hp : p.isPrefix = true) (s : State) :
    exec p s = .next (s.setCur (afterPrefixes s.cur [p])) := by
  cases p with
  | pfxEs | pfxCs | pfxSs | pfxDs | pfxLock | pfxRepne | pfxRep => rfl
  | _ => cases hp

/-! ## Code bytes -/

theorem unsetCode_congr {s u : State} (h : SameStores s u) (hs : u.segs.cs = s.segs.cs) (off : Word) (n : Nat) :
    u.unsetCode off n = s.unsetCode off n := by
  induction n generalizing off with
  | zero => rfl
  | succ n ih =>
    have hm : u.unsetMem8 s.segs.cs off = s.unsetMem8 s.segs.cs off := by
      rw [State.unsetMem8, State.unsetMem8, h.locate, unsetPlace_eq, unsetPlace_eq, h.sameMem.marks]
    rw [State.unsetCode, State.unsetCode, hs, hm, ih]

/-- The offset `n` bytes after the next one. -/
theorem add_one_add (off : Word) (n : Nat) : off + 1#16 + BitVec.ofNat 16 n = off + BitVec.ofNat 16 (n + 1) := by
  rw [BitVec.add_assoc, Nat.add_comm n 1, BitVec.ofNat_add]

/-- The reads of code bytes, in two parts. -/
theorem unsetCode_add (s : State) (off : Word) (n m : Nat) :
    s.unsetCode off (n + m) = s.unsetCode off n ++ s.unsetCode (off + BitVec.ofNat 16 n) m := by
  induction n generalizing off with
  | zero => simp [State.unsetCode]
  | succ n ih => simp [Nat.succ_add, State.unsetCode, ih, add_one_add]

/-- The state after `p`, one of the prefixes, is read (R152). -/
def pastPrefix (s : State) (p : Instr) : State := (s.noteCode 1).setCur (afterPrefixes s.cur [p])

theorem pastPrefix_stores (s : State) (p : Instr) : SameStores s (pastPrefix s p) := by constructor <;> rfl

theorem pastPrefix_codeOffset (s : State) (p : Instr) : (pastPrefix s p).codeOffset = s.codeOffset + 1#16 := by
  have h : (pastPrefix s p).codeOffset = s.ip + BitVec.ofNat 16 (s.cur.pfxLen + 1) := rfl
  rw [h, State.codeOffset, BitVec.ofNat_add, BitVec.add_assoc]

theorem readPrefixes_cons (s : State) {p : Instr} (ps : List Instr) (hp : p.isPrefix = true) :
    readPrefixes s (p :: ps) = readPrefixes (pastPrefix s p) ps := by
  rw [readPrefixes, exec_prefix hp]
  rfl

/-- Reading prefixes changes the decode state and records the reads of their bytes. -/
theorem readPrefixes_eq (s : State) (ps : List Instr) (h : ∀ p ∈ ps, p.isPrefix = true) : readPrefixes s ps =
    { s with faults := s.faults ++ s.unsetCode s.codeOffset ps.length, cur := afterPrefixes s.cur ps } := by
  induction ps generalizing s with
  | nil => simp [readPrefixes, afterPrefixes_nil, State.unsetCode]
  | cons p ps ih =>
    obtain ⟨hp, hps⟩ := List.forall_mem_cons.mp h
    rw [readPrefixes_cons s ps hp, ih _ hps, pastPrefix_codeOffset, unsetCode_congr (pastPrefix_stores s p) rfl,
      afterPrefixes_cons, List.length_cons, Nat.add_comm, unsetCode_add]
    simp [pastPrefix, State.noteCode, State.setCur, State.record]

/-! ## The fetch at the byte of one of the prefixes, and elsewhere -/

/-- The byte `k` bytes after the next one that the decoder reads. -/
def codeByte (s : State) (k : Nat) : Byte := s.mem8 s.segs.cs (s.codeOffset + BitVec.ofNat 16 k)

theorem codeByte_pastPrefix (s : State) (p : Instr) (k : Nat) : codeByte (pastPrefix s p) k = codeByte s (k + 1) := by
  rw [codeByte, pastPrefix_codeOffset, add_one_add]
  rfl

theorem codeBytes_one (s : State) : s.codeBytes s.codeOffset 1 = [codeByte s 0] := by
  simp [State.codeBytes, codeByte]

/-- Where the next byte is that of one of the prefixes, it is read and the reading goes on (R152). -/
theorem executeN_pastPrefix {s : State} {p : Instr} (hp : p.isPrefix = true) (hb : encode p = [codeByte s 0]) (n : Nat) :
    executeN (n + 1) s = executeN n (pastPrefix s p) := by
  have hbytes : s.codeBytes s.codeOffset p.len = encode p := by rw [prefix_len hp, hb, codeBytes_one]
  have hf := fetch_of_bytes (fun rest => decode_encode p rest (prefix_wf hp)) (len_le_maxLen p) hbytes
  rw [prefix_len hp] at hf
  exact executeN_prefix hf (exec_prefix hp _) hp

/-- An instruction that the fetch finds is at the next byte. -/
theorem encode_of_fetch {s : State} {i : Instr} {len : Nat} (h : s.fetch = .instr i len) :
    ∃ rest, s.codeBytes s.codeOffset maxLen = encode i ++ rest := by
  unfold State.fetch at h
  split at h
  · rename_i rest hd
    obtain ⟨rfl, -⟩ := Fetched.instr.inj h
    exact ⟨rest, (decode_instr hd).2⟩
  · cases h
  · cases h

/-- Where the next byte is none of `prefixBytes`, one instruction or one gap ends the reading of prefixes (R152). -/
theorem executeN_of_not_prefix {s : State} (h : codeByte s 0 ∉ prefixBytes) (n : Nat) :
    ∃ r, executeN (n + 1) s = .next r := by
  cases hf : s.fetch with
  | gap len => exact ⟨_, executeN_gap hf⟩
  | instr i len =>
    have hp : i.isPrefix = false := by
      by_contra hp
      obtain ⟨b, hb, he⟩ := encode_prefix (Bool.eq_true_of_not_eq_false hp)
      obtain ⟨rest, hrest⟩ := encode_of_fetch hf
      rw [he, List.singleton_append] at hrest
      obtain ⟨rfl, -⟩ := List.cons.inj hrest
      rw [codeByte, BitVec.add_zero] at h
      exact h hb
    obtain ⟨u, hu, -⟩ := exec_reaches i (s.noteCode len)
    exact ⟨_, executeN_instr hf hu hp⟩

/-- The reading of prefixes hangs where it meets bytes of prefixes only, and answers a next state elsewhere (R152). -/
theorem executeN_outcome (n : Nat) (s : State) :
    (∃ r, executeN n s = .next r) ∧ (∃ k < n, codeByte s k ∉ prefixBytes)
      ∨ executeN n s = .fault .hung ∧ ∀ k < n, codeByte s k ∈ prefixBytes := by
  induction n generalizing s with
  | zero => exact .inr ⟨rfl, fun _ hk => absurd hk (Nat.not_lt_zero _)⟩
  | succ n ih =>
    by_cases hb : codeByte s 0 ∈ prefixBytes
    · obtain ⟨p, hp, he⟩ := prefix_of_byte hb
      rw [executeN_pastPrefix hp he]
      rcases ih (pastPrefix s p) with ⟨hr, k, hk, hkb⟩ | ⟨hr, hall⟩
      · exact .inl ⟨hr, k + 1, Nat.succ_lt_succ hk, by rwa [← codeByte_pastPrefix s p]⟩
      · refine .inr ⟨hr, fun k hk => ?_⟩
        cases k with
        | zero => exact hb
        | succ k => rw [← codeByte_pastPrefix s p]; exact hall k (Nat.lt_of_succ_lt_succ hk)
    · exact .inl ⟨executeN_of_not_prefix hb n, 0, Nat.succ_pos n, hb⟩

/-! ## The step hangs where the code segment holds bytes of prefixes only (O28, O37) -/

/-- Every byte of the code segment is that of one of the prefixes. -/
def OnlyPrefixes (s : State) : Prop := ∀ off, s.mem8 s.segs.cs off ∈ prefixBytes

theorem onlyPrefixes_iff (s : State) : OnlyPrefixes s ↔ ∀ k < 65536, codeByte s k ∈ prefixBytes := by
  refine ⟨fun h k _ => h _, fun h off => ?_⟩
  have hk := h (off - s.codeOffset).toNat (off - s.codeOffset).isLt
  rwa [codeByte, BitVec.ofNat_toNat, BitVec.setWidth_eq, BitVec.add_comm, BitVec.sub_add_cancel] at hk

theorem execute_outcome (s : State) :
    (∃ r, s.execute = .next r) ∧ ¬OnlyPrefixes s ∨ s.execute = .fault .hung ∧ OnlyPrefixes s := by
  rw [onlyPrefixes_iff]
  rcases executeN_outcome 65536 s with ⟨hr, k, hk, hkb⟩ | h
  · exact .inl ⟨hr, fun hall => hkb (hall k hk)⟩
  · exact .inr h

theorem runInstr_outcome (s : State) :
    (∃ r, s.runInstr = .next r) ∧ ¬OnlyPrefixes s ∨ s.runInstr = .fault .hung ∧ OnlyPrefixes s := by
  rcases execute_outcome (started s) with ⟨⟨⟨t, c⟩, hr⟩, h⟩ | ⟨hr, h⟩
  · exact .inl ⟨⟨_, runInstr_of_execute hr⟩, h⟩
  · rw [started] at hr
    exact .inr ⟨by rw [State.runInstr, hr], h⟩

theorem stepNoInterrupt_outcome (s : State) :
    (∃ r, s.stepNoInterrupt = .next r) ∨ s.stepNoInterrupt = .fault .hung ∧ OnlyPrefixes s := by
  have hrun (u : State) : (∃ r, u.runInstr = .next r) ∨ u.runInstr = .fault .hung ∧ OnlyPrefixes u :=
    (runInstr_outcome u).imp_left And.left
  unfold State.stepNoInterrupt
  split
  · split
    · exact hrun (s.setHalted false)
    · exact .inl ⟨_, rfl⟩
  · exact hrun s

theorem cpuStep_outcome (s : State) : (∃ r, s.cpuStep = .next r) ∨ s.cpuStep = .fault .hung ∧ OnlyPrefixes s := by
  unfold State.cpuStep
  split
  · split
    · exact .inl ⟨_, rfl⟩
    · exact stepNoInterrupt_outcome s
  · exact stepNoInterrupt_outcome s

theorem step_of_hung {s : State} (h : s.cpuStep = .fault .hung) : step s = .fault .hung := by
  rw [step, State.schedStep, h]

/-- Settles O28: an instruction answers by `exec_reaches`; a step by the outcomes of its parts. -/
theorem everyInstructionCompletes : Obligations.EveryInstructionCompletes := by
  unfold Obligations.EveryInstructionCompletes
  refine ⟨fun i s => (exec_reaches i s).imp fun _ => And.left, fun s => ?_⟩
  rcases cpuStep_outcome s with ⟨⟨t, c⟩, hr⟩ | ⟨hr, h⟩
  · exact .inl ⟨_, step_of_cpuStep hr⟩
  · exact .inr ⟨step_of_hung hr, h⟩

/-- Settles O37: the execution step reads 65536 prefixes. -/
theorem prefixesOnlyHang : Obligations.PrefixesOnlyHang := by
  unfold Obligations.PrefixesOnlyHang
  intro s hr h
  rcases runInstr_outcome s with ⟨-, hn⟩ | ⟨hx, -⟩
  · exact absurd h hn
  · exact step_of_hung ((cpuStep_of_runs hr).trans hx)

/-! ## A step reads the prefixes at CS:IP (O36, O39) -/

/-- Where the bytes of some prefixes stand at the code offset, they are read (R152). -/
theorem executeN_readPrefixes {s : State} {ps : List Instr} (h : ∀ p ∈ ps, p.isPrefix = true)
    (hb : s.codeBytes s.codeOffset ps.length = ps.flatMap encode) (n : Nat) :
    executeN (ps.length + n) s = executeN n (readPrefixes s ps) := by
  induction ps generalizing s with
  | nil => rw [List.length_nil, Nat.zero_add, readPrefixes]
  | cons p ps ih =>
    obtain ⟨hp, hps⟩ := List.forall_mem_cons.mp h
    obtain ⟨b, -, he⟩ := encode_prefix hp
    rw [List.length_cons, State.codeBytes, List.flatMap_cons, he, List.singleton_append, List.cons.injEq] at hb
    obtain ⟨hhead, htail⟩ := hb
    have hbyte : encode p = [codeByte s 0] := by rw [he, ← hhead, codeByte, BitVec.add_zero]
    have hrest : (pastPrefix s p).codeBytes (pastPrefix s p).codeOffset ps.length = ps.flatMap encode := by
      rw [pastPrefix_codeOffset, codeBytes_congr (pastPrefix_stores s p) rfl, htail]
    rw [List.length_cons, Nat.add_right_comm, executeN_pastPrefix hp hbyte, ih hps hrest, readPrefixes_cons s ps hp]

section Prefixed

variable {s : State} {ps : List Instr} (hr : Runs s) (hps : ∀ p ∈ ps, p.isPrefix = true)

include hr

theorem started_codeOffset : (started s).codeOffset = s.ip := by simp [State.codeOffset, started, hr.idle]

include hps

/-- The state in which the instruction after the prefixes starts. -/
theorem readPrefixes_started : readPrefixes (started s) ps =
    { started s with faults := s.faults ++ s.unsetCode s.ip ps.length, cur := prefixCtx ps } := by
  have hcur : (started s).cur = {} := hr.idle
  rw [readPrefixes_eq _ _ hps, started_codeOffset hr, hcur, afterPrefixes_idle, unsetCode_congr (started_sameStores s) rfl]
  rfl

theorem readPrefixes_stores : SameStores s (readPrefixes (started s) ps) := by
  rw [readPrefixes_started hr hps]
  constructor <;> rfl

theorem readPrefixes_cs : (readPrefixes (started s) ps).segs.cs = s.segs.cs := by
  rw [readPrefixes_started hr hps]
  rfl

theorem readPrefixes_codeBytes (off : Word) (n : Nat) :
    (readPrefixes (started s) ps).codeBytes off n = s.codeBytes off n :=
  codeBytes_congr (readPrefixes_stores hr hps) (readPrefixes_cs hr hps) off n

theorem readPrefixes_codeOffset : (readPrefixes (started s) ps).codeOffset = s.ip + BitVec.ofNat 16 ps.length := by
  rw [readPrefixes_started hr hps]
  rfl

/-- The step executes what stands after the prefixes at CS:IP. -/
theorem cpuStep_of_readPrefixes (hlen : ps.length < 65536) (hb : s.codeBytes s.ip ps.length = ps.flatMap encode) {t : State}
    {c : Option Nat} (hx : ∀ n, executeN (n + 1) (readPrefixes (started s) ps) = .next (t, c)) :
    s.cpuStep = .next (t.singleStep (s.flag .tf) c) := by
  obtain ⟨n, hn⟩ := Nat.exists_eq_add_of_lt hlen
  have hbytes : (started s).codeBytes (started s).codeOffset ps.length = ps.flatMap encode := by
    rw [started_codeOffset hr, codeBytes_congr (started_sameStores s) rfl, hb]
  have hex : (started s).execute = .next (t, c) := by
    rw [State.execute, hn, Nat.add_assoc, executeN_readPrefixes hps hbytes, hx]
  exact (cpuStep_of_runs hr).trans (runInstr_of_execute hex)

/-- A gap after the prefixes: its bytes are read, and the diagnostic and the advance count those of the prefixes too. -/
theorem gapStep_readPrefixes (n : Nat) : ((readPrefixes (started s) ps).noteCode n).gapStep n =
    { started s with
      faults := s.faults ++ s.unsetCode s.ip (ps.length + n)
      diag := s.diag ++ [.decodeGap s.segs.cs s.ip (s.codeBytes s.ip (ps.length + n))]
      ip := s.ip + BitVec.ofNat 16 (ps.length + n)
      cur := prefixCtx ps } := by
  have hcode := unsetCode_congr (readPrefixes_stores hr hps) (readPrefixes_cs hr hps) (s.ip + BitVec.ofNat 16 ps.length) n
  have hbytes : ((readPrefixes (started s) ps).noteCode n).codeBytes s.ip (ps.length + n)
      = s.codeBytes s.ip (ps.length + n) :=
    (codeBytes_congr (untouched_record _ _).stores rfl _ _).trans (readPrefixes_codeBytes hr hps _ _)
  rw [unsetCode_add, ← hcode, ← readPrefixes_codeOffset hr hps, ← hbytes, ← List.append_assoc, readPrefixes_started hr hps]
  rfl

end Prefixed

/-- Settles O36: the prefixes are read, and the fetch after them finds the instruction. -/
theorem stepReadsPrefixes : Obligations.StepReadsPrefixes := by
  unfold Obligations.StepReadsPrefixes
  intro s u ps i hr hlen hps hwf hp hb s1 hx
  have hpfx : (ps.flatMap encode).length = ps.length := by
    have hlen : ∀ p ∈ ps, (encode p).length = 1 := fun p hp => prefix_len (hps p hp)
    rw [List.length_flatMap, List.map_congr_left hlen, List.map_const', List.sum_replicate, smul_eq_mul, Nat.mul_one]
  rw [codeBytes_add] at hb
  obtain ⟨hpre, hinstr⟩ := List.append_inj hb (by rw [codeBytes_length, hpfx])
  have hbytes : s1.codeBytes s1.codeOffset i.len = encode i := by
    rw [readPrefixes_codeOffset hr hps, readPrefixes_codeBytes hr hps, hinstr]
  have hf := fetch_of_bytes (fun rest => decode_encode i rest hwf) (len_le_maxLen i) hbytes
  exact ⟨cpuStep_of_readPrefixes hr hps hlen hpre fun _ => executeN_instr hf hx hp, readPrefixes_started hr hps⟩

/-- Settles O39: the prefixes are read, and the fetch after them finds the gap. -/
theorem gapStep : Obligations.GapStep := by
  unfold Obligations.GapStep
  intro s ps k n hr hlen hps hb hd
  have hf : (readPrefixes (started s) ps).fetch = .gap n := by
    rw [State.fetch, readPrefixes_codeOffset hr hps, readPrefixes_codeBytes hr hps, maxLen, hd]
  rw [cpuStep_of_readPrefixes hr hps hlen hb fun _ => executeN_gap hf, gapStep_readPrefixes hr hps,
    (readPrefixes_stores hr hps).ext]

end Sys2Proof.Machine

namespace Sys2Proof.Machine

/-! ## Data transfer: what is kept until IP moves -/

/-- Nothing but general registers, memory and the fault record has changed. -/
structure SameControl (s u : State) : Prop where
  core : SameCore s u
  segs : u.segs = s.segs
  flags : u.flags = s.flags
  ip : u.ip = s.ip

theorem OnlyRecords.sameControl {s u : State} (h : OnlyRecords s u) : SameControl s u := by
  obtain ⟨core, segs, flags, ip, -, -⟩ := pushed_nil h
  exact ⟨core, segs, flags, ip⟩

theorem Pushed.sameControl {s u : State} {l : List Word} (h : Pushed s l u) : SameControl s u :=
  ⟨h.core, h.segs, h.flags, h.ip⟩

theorem Popped.sameControl {s u : State} {n : Word} (h : Popped s n u) : SameControl s u :=
  ⟨h.core, h.segs, h.flags, h.ip⟩

theorem Copied.sameControl {v w v' : State} {n : Nat} (h : Copied v n w v') : SameControl v v' :=
  ⟨h.core, h.segs, h.flags, h.ip⟩

namespace SameControl

variable {s t u : State}

theorem trans (h : SameControl s t) (k : SameControl t u) : SameControl s u :=
  ⟨h.core.trans k.core, k.segs.trans h.segs, k.flags.trans h.flags, k.ip.trans h.ip⟩

theorem setReg16 (h : SameControl s u) (r : Reg16) (v : Word) : SameControl s (u.setReg16 r v) :=
  h.trans ⟨⟨by constructor <;> rfl, rfl, rfl, rfl, List.prefix_rfl⟩, rfl, rfl, rfl⟩

theorem setReg8 (h : SameControl s u) (r : Reg8) (v : Byte) : SameControl s (u.setReg8 r v) :=
  h.trans ⟨⟨by constructor <;> rfl, rfl, rfl, rfl, List.prefix_rfl⟩, rfl, rfl, rfl⟩

theorem write8 (h : SameControl s u) (l : Loc8) (v : Byte) : SameControl s (u.write8 l v) :=
  h.trans ⟨⟨by constructor <;> simp, by simp, by simp, by simp, by simp⟩, by simp, by simp, by simp⟩

theorem write16 (h : SameControl s u) (l : Loc16) (v : Word) : SameControl s (u.write16 l v) :=
  h.trans ⟨⟨by constructor <;> simp, by simp, by simp, by simp, by simp⟩, by simp, by simp, by simp⟩

theorem drop (h : SameControl s u) : SameControl s u.drop := h.trans (popped_one u).sameControl

theorem push (h : SameControl s u) (v : Word) : SameControl s (u.push v) :=
  h.trans ((pushed_nil (onlyRecords_refl u)).push v).sameControl

theorem ipNext (h : SameControl s u) (i : Instr) : u.ipNext i = s.ipNext i := by
  rw [State.ipNext, State.ipNext, h.ip, h.core.cur]

/-- The frame of an instruction that falls through. -/
theorem plain (h : SameControl s u) (i : Instr) : Plain i s (u.advance i) :=
  ⟨h.core.trans ⟨by constructor <;> rfl, rfl, rfl, rfl, List.prefix_rfl⟩, h.segs, h.ipNext i⟩

/-- As `plain`, where FLAGS is written too. -/
theorem plain_setFlags (h : SameControl s u) (i : Instr) (fl : Word) : Plain i s ((u.setFlags fl).advance i) :=
  ⟨h.core.trans ⟨by constructor <;> rfl, rfl, rfl, rfl, List.prefix_rfl⟩, h.segs, h.ipNext i⟩

end SameControl

/-! ### Registers and stores under further updates -/

/-- A listed register may be written. -/
theorem SameRegsBut.setReg16 {l : List Reg16} {s u : State} (h : SameRegsBut l s u) {r : Reg16} (hr : r ∈ l) (v : Word) :
    SameRegsBut l s (u.setReg16 r v) := fun q hq => by
  have hne : q ≠ r := fun e => hq (e ▸ hr)
  simpa [hne] using h q hq

/-- A half of a listed register may be written. -/
theorem SameRegsBut.setReg8 {l : List Reg16} {s u : State} (h : SameRegsBut l s u) {r : Reg8} (hr : Reg8.parent r ∈ l)
    (v : Byte) : SameRegsBut l s (u.setReg8 r v) := fun q hq => by
  have hne : q ≠ Reg8.parent r := fun e => hq (e ▸ hr)
  simpa [hne] using h q hq

theorem SameRegsBut.reg8 {s u : State} (h : SameRegsBut [] s u) (q : Reg8) : u.reg8 q = s.reg8 q := by
  simp only [State.reg8, (h (Reg8.parent q) List.not_mem_nil).1]

/-- A write of an 8-bit register where no register was changed before. -/
theorem SameRegsBut.setByteReg {s u : State} (h : SameRegsBut [] s u) (r : Reg8) (v : Byte) :
    SetByteReg s (u.setReg8 r v) r v :=
  ⟨fun q => by rw [setReg8_reg8, h.reg8], (h.mono (by simp)).setReg8 (List.mem_singleton_self _) v⟩

/-- A write of a 16-bit register where no register was changed before. -/
theorem SameRegsBut.setWordReg {s u : State} (h : SameRegsBut [] s u) (r : Reg16) (v : Word) :
    SetWordReg s (u.setReg16 r v) r v :=
  ⟨by simp, (h.mono (by simp)).setReg16 (List.mem_singleton_self _) v⟩

theorem SameStores.setReg16 {s u : State} (h : SameStores s u) (r : Reg16) (v : Word) : SameStores s (u.setReg16 r v) :=
  ⟨h.ram, h.rom, h.save, h.banks, h.cfg, h.ext⟩

theorem SameStores.setReg8 {s u : State} (h : SameStores s u) (r : Reg8) (v : Byte) : SameStores s (u.setReg8 r v) :=
  ⟨h.ram, h.rom, h.save, h.banks, h.cfg, h.ext⟩

theorem SameStores.advance {s u : State} (h : SameStores s u) (i : Instr) : SameStores s (u.advance i) :=
  ⟨h.ram, h.rom, h.save, h.banks, h.cfg, h.ext⟩

/-- A word store, whatever registers were changed before. -/
theorem SameStores.stored16 {s u : State} (h : SameStores s u) (sg off v : Word) :
    Stored16 s (u.writeMem16 sg off v) sg off v :=
  (stored16_writeMem16 (Untouched.refl s) sg off v).of_same (h.writeMem16 sg off v).sameMem

/-! ## MOV (O12, O13) -/

theorem onlyRecords_fetchSrc8 (s : State) (e : Rm8) (x : Src8) : OnlyRecords s (s.fetchSrc8 e x) :=
  (onlyRecords_refl s).record _

theorem onlyRecords_fetchSrc16 (s : State) (e : Rm16) (x : Src16) : OnlyRecords s (s.fetchSrc16 e x) :=
  (onlyRecords_refl s).record _

/-- A direct address lies in the overridable data segment (R166). -/
theorem eaSeg_direct (s : State) (off : Word) : s.eaSeg (.direct off) = sourceSeg s := segOr_ds s

/-- A load from a direct offset is a move from the direct operand (R203). -/
theorem movAlOb_moves (s : State) (off : Word) : Moves8 s (.movAlOb off) (.reg .al) (s.mem8 (sourceSeg s) off) := by
  rw [← segOr_ds]
  exact moves8 (onlyRecords_noteMem8 s _ _) rfl

theorem movAxOw_moves (s : State) (off : Word) : Moves16 s (.movAxOw off) (.reg .ax) (s.mem16 (sourceSeg s) off) := by
  rw [← segOr_ds]
  exact moves16 (onlyRecords_noteMem16 s _ _) rfl

/-- A store to a direct offset is a move to the direct operand (R203). -/
theorem movObAl_moves (s : State) (off : Word) : Moves8 s (.movObAl off) (.mem (.direct off)) (s.reg8 .al) :=
  moves8 (onlyRecords_note8 s .al) rfl

theorem movOwAx_moves (s : State) (off : Word) : Moves16 s (.movOwAx off) (.mem (.direct off)) (s.reg16 .ax) :=
  moves16 (onlyRecords_note16 s .ax) rfl

/-- Settles O12: each form writes its destination after some reads; a direct offset is a memory operand. -/
theorem movForms : Obligations.MovForms := by
  unfold Obligations.MovForms
  intro s e g x r b v
  have rec8 := onlyRecords_fetchSrc8 s
  have rec16 := onlyRecords_fetchSrc16 s
  refine ⟨moves8 (rec8 _ _) rfl, moves16 (rec16 _ _) rfl, moves8 (rec8 _ _) rfl, moves16 (rec16 _ _) rfl,
    moves8 (onlyRecords_refl s) rfl, moves16 (onlyRecords_refl s) rfl, moves8 (rec8 _ _) rfl, moves16 (rec16 _ _) rfl,
    movAlOb_moves s v, movAxOw_moves s v, ?_, ?_⟩
  · obtain ⟨t, hx, hplain, hflags, hregs, hstored⟩ := movObAl_moves s v
    exact ⟨t, hx, hplain, hflags, hregs, eaSeg_direct s v ▸ hstored⟩
  · obtain ⟨t, hx, hplain, hflags, hregs, hstored⟩ := movOwAx_moves s v
    exact ⟨t, hx, hplain, hflags, hregs, eaSeg_direct s v ▸ hstored⟩

/-- `shadow` after `setShadow` (R51). -/
theorem setShadow_shadow (s : State) : s.setShadow.shadow = (s.shadow || decide (s.cfg.intShadow ≠ .none)) := by
  unfold State.setShadow
  split
  next h => simp [h]
  next h => simp [h]

theorem SameOutside.trans {s t u : State} (a : SameOutside s t) (b : SameOutside t u) : SameOutside s u :=
  ⟨b.ic.trans a.ic, b.timers.trans a.timers, b.ppu.trans a.ppu, b.apu.trans a.apu, b.banks.trans a.banks, b.rom.trans a.rom,
    b.saveSize.trans a.saveSize, b.rem.trans a.rem, b.elapsed.trans a.elapsed, b.mode.trans a.mode, b.samples.trans a.samples,
    b.raised.trans a.raised, b.trace.trans a.trace, b.input.trans a.input, b.cfg.trans a.cfg, b.ext.trans a.ext,
    b.diag.trans a.diag⟩

/-- A load of a segment register, with or without the interrupt shadow, where `shadow` comes out right. -/
theorem SameControl.loadsSeg_of_shadow {s u w : State} (h : SameControl s u) (i : Instr) {r : SReg} {v : Word}
    (hw : w = u.setSReg r v ∨ w = (u.setSReg r v).setShadow)
    (hshadow : w.shadow = (s.shadow || (r == .ss && decide (s.cfg.intShadow ≠ .none)))) :
    LoadsSeg s (w.advance i) i r v := by
  have hsreg (q : SReg) : u.sreg q = s.sreg q := by cases q <;> simp [State.sreg, h.segs]
  rcases hw with rfl | rfl
  all_goals
    exact ⟨h.core.outside.trans (by constructor <;> simp), by simp [h.core.halted], by simp [h.core.cur],
      by simpa using h.core.faults, by simp [h.ipNext], fun q => by simp [hsreg], hshadow⟩

theorem SameControl.loadsSeg {s u : State} (h : SameControl s u) (i : Instr) {r : SReg} (hr : r ≠ .ss) (v : Word) :
    LoadsSeg s ((u.setSReg r v).advance i) i r v :=
  h.loadsSeg_of_shadow i (.inl rfl) (by simp [h.core.shadow, hr])

/-- A load of SS sets `shadow` where the machine has one (R205, R51). -/
theorem SameControl.loadsSs {s u : State} (h : SameControl s u) (i : Instr) (v : Word) :
    LoadsSeg s ((u.setSReg .ss v).setShadow.advance i) i .ss v :=
  h.loadsSeg_of_shadow i (.inr rfl) (by simp [setShadow_shadow, h.core.shadow, h.core.outside.cfg])

theorem SameData.trans {s t u : State} (h : SameData s t) (k : SameData t u) : SameData s u :=
  ⟨k.flags.trans h.flags, h.regs.trans k.regs, h.mem.trans k.mem⟩

theorem OnlyRecords.sameData {s u : State} (h : OnlyRecords s u) : SameData s u :=
  ⟨h.sameControl.flags, h.untouched.sameRegs [], h.untouched.sameMem⟩

/-- A load of a segment register changes no data. -/
theorem sameData_loadSeg (u : State) (i : Instr) (r : SReg) (v : Word) : SameData u ((u.setSReg r v).advance i) :=
  ⟨by simp, fun q _ => by simp, SameStores.sameMem (by constructor <;> simp)⟩

theorem sameData_loadSs (u : State) (i : Instr) (v : Word) : SameData u ((u.setSReg .ss v).setShadow.advance i) :=
  ⟨by simp, fun q _ => by simp, SameStores.sameMem (by constructor <;> simp)⟩

/-- Settles O13: a move of the segment register's value, and loads after the read of E. -/
theorem segmentMoves : Obligations.SegmentMoves := by
  unfold Obligations.SegmentMoves
  intro s x
  have hto := onlyRecords_resolve16 s x
  have hfrom := onlyRecords_fetch16 s x
  have hctl := hfrom.sameControl
  exact ⟨moves16 hto rfl, moves16 hto rfl, moves16 hto rfl, moves16 hto rfl,
    ⟨_, rfl, hctl.loadsSeg _ (by decide) _, hfrom.sameData.trans (sameData_loadSeg ..)⟩,
    ⟨_, rfl, hctl.loadsSs _ _, hfrom.sameData.trans (sameData_loadSs ..)⟩,
    ⟨_, rfl, hctl.loadsSeg _ (by decide) _, hfrom.sameData.trans (sameData_loadSeg ..)⟩⟩

end Sys2Proof.Machine

namespace Sys2Proof.Machine

/-! ## PUSH (O14) -/

/-- One push after some reads is all that the instruction does. -/
theorem pushes_of_onlyRecords {s u : State} {i : Instr} {v : Word} (h : OnlyRecords s u)
    (hx : exec i s = .next ((u.push v).advance i)) : Pushes s i v := pushed_pushes ((pushed_nil h).push v) hx

/-- PUSH of a general register, SP among them (R208). -/
theorem pushR16_pushes (s : State) (r : Reg16) :
    Pushes s (.pushR16 r) (if r = .sp ∧ s.cfg.pushSpNew = true then s.reg16 .sp - 2#16 else s.reg16 r) := by
  by_cases hsp : r = .sp ∧ s.cfg.pushSpNew = true
  · have hnew : s.pushGeneral r = s.push (s.reg16 .sp - 2#16) := if_pos hsp
    rw [if_pos hsp]
    exact pushes_of_onlyRecords (onlyRecords_refl s) (hnew ▸ rfl)
  · have hold : s.pushGeneral r = (s.note16 r).push (s.reg16 r) := if_neg hsp
    rw [if_neg hsp]
    exact pushes_of_onlyRecords (onlyRecords_note16 s r) (hold ▸ rfl)

/-- Settles O14: every form is one push, after the operand's reads. -/
theorem pushForms : Obligations.PushForms := by
  unfold Obligations.PushForms
  intro s r x v b
  have hnone := onlyRecords_refl s
  exact ⟨pushR16_pushes s r, pushes_of_onlyRecords (onlyRecords_fetch16 s x) rfl, pushes_of_onlyRecords hnone rfl,
    pushes_of_onlyRecords hnone rfl, pushes_of_onlyRecords hnone rfl, pushes_of_onlyRecords hnone rfl,
    pushes_of_onlyRecords hnone rfl, pushes_of_onlyRecords hnone rfl, pushes_of_onlyRecords hnone rfl⟩

/-! ## POP (O15) -/

/-- A pop into a general register, SP among them (R212). -/
theorem Popped.answers_reg {s u : State} {i : Instr} {r : Reg16} (h : Popped s 2#16 u)
    (hx : exec i s = .next ((u.setReg16 r (topWord s)).advance i)) :
    Answers i s fun t => Plain i s t ∧ t.flags = s.flags ∧ SameMem s t ∧ SameRegsBut [r, .sp] s t
      ∧ t.reg16 r = topWord s ∧ (r ≠ .sp → t.reg16 .sp = s.reg16 .sp + 2#16) := by
  have hctl := h.sameControl.setReg16 r (topWord s)
  have hregs : SameRegsBut [r, .sp] s (u.setReg16 r (topWord s)) := (h.sp.2.mono (by simp)).setReg16 (by simp) _
  refine ⟨_, hx, hctl.plain i, hctl.flags, ((h.stores.setReg16 r _).advance i).sameMem, hregs, by simp, fun hr => ?_⟩
  simpa [hr.symm] using h.sp.1

/-- The data after a pop are those after a further update that changes none. -/
theorem Popped.data {s u w : State} {n : Word} (h : Popped s n u) (k : SameData u w) :
    w.flags = s.flags ∧ SameMem s w ∧ SetWordReg s w .sp (s.reg16 .sp + n) :=
  ⟨k.flags.trans h.flags, h.stores.sameMem.trans k.mem, (k.regs .sp List.not_mem_nil).1.trans h.sp.1,
    h.sp.2.trans (k.regs.mono (by simp))⟩

/-- The word at the top is popped, after some reads. -/
theorem OnlyRecords.popped {s u : State} (h : OnlyRecords s u) : Popped s 2#16 u.drop := (popped_nil h).drop

/-- A pop into memory, the address computed before it (R214). -/
theorem Popped.answers_mem {s u : State} {i : Instr} {sg off : Word} (h : Popped s 2#16 u)
    (hx : exec i s = .next ((u.writeMem16 sg off (topWord s)).advance i)) :
    Answers i s fun t => Plain i s t ∧ t.flags = s.flags ∧ SetWordReg s t .sp (s.reg16 .sp + 2#16)
      ∧ Stored16 s t sg off (topWord s) := by
  have hctl := h.sameControl.write16 (.mem sg off) (topWord s)
  obtain ⟨hsp, hregs⟩ := h.sp
  exact ⟨_, hx, hctl.plain i, hctl.flags, ⟨by simpa using hsp, fun q hq => by simpa using hregs q hq⟩,
    (h.stores.stored16 sg off _).of_same ((SameStores.rfl' _).advance i).sameMem⟩

/-- Settles O15: each form is one pop and a write of its destination. -/
theorem popForms : Obligations.PopForms := by
  unfold Obligations.PopForms
  intro s r m
  have hpop := popped_one s
  have hctl := hpop.sameControl
  refine ⟨?_, (onlyRecords_resolve16 s (.mem m)).popped.answers_mem (top_eq s ▸ rfl), ?_, ?_, ?_, ?_⟩
  · rintro i (rfl | rfl)
    · exact hpop.answers_reg (top_eq s ▸ rfl)
    · exact (onlyRecords_resolve16 s (.reg r)).popped.answers_reg (top_eq s ▸ rfl)
  · exact ⟨_, rfl, top_eq s ▸ hctl.loadsSeg _ (by decide) _, hpop.data (sameData_loadSeg ..)⟩
  · exact ⟨_, rfl, top_eq s ▸ hctl.loadsSs _ _, hpop.data (sameData_loadSs ..)⟩
  · exact ⟨_, rfl, top_eq s ▸ hctl.loadsSeg _ (by decide) _, hpop.data (sameData_loadSeg ..)⟩
  · have hflags : writeFlagsWord s.drop.cfg s.top = (topWord s &&& 0x0FD5#16) ||| s.cfg.flagsFixedOne := by
      rw [top_eq, drop_cfg]
      rfl
    have hmem := SameStores.sameMem (s := s) (u := (s.drop.writeFlags s.top).advance .popf) (by constructor <;> simp)
    exact ⟨_, rfl, hctl.plain_setFlags _ _, hmem, hpop.sp, hflags⟩

end Sys2Proof.Machine

namespace Sys2Proof.Machine

/-! ## PUSHA, POPA, ENTER and LEAVE (O16) -/

/-- The words that PUSHA pushes, in their order (R215). -/
theorem pushAll_pushed (s : State) :
    Pushed s [s.reg16 .ax, s.reg16 .cx, s.reg16 .dx, s.reg16 .bx, s.reg16 .sp, s.reg16 .bp, s.reg16 .si, s.reg16 .di]
      s.pushAll :=
  have hlow := ((((pushed_nil (onlyRecords_note16 s .sp)).pushReg (r := .ax) (by decide)).pushReg (r := .cx)
    (by decide)).pushReg (r := .dx) (by decide)).pushReg (r := .bx) (by decide)
  (((hlow.push (s.reg16 .sp)).pushReg (r := .bp) (by decide)).pushReg (r := .si) (by decide)).pushReg (r := .di) (by decide)

theorem Pushed.answers_block {s u : State} {i : Instr} {l : List Word} (h : Pushed s l u)
    (hx : exec i s = .next (u.advance i)) :
    Answers i s fun t => Plain i s t ∧ t.flags = s.flags
      ∧ SetWordReg s t .sp (s.reg16 .sp - BitVec.ofNat 16 (2 * l.length))
      ∧ MemAs (storesDown s s.segs.ss (s.reg16 .sp) l) t :=
  ⟨_, hx, h.sameControl.plain i, h.flags, h.sp, (h.stores.advance i).sameMem⟩

/-- The state after words were popped into other registers than SP (R212, R216). -/
structure PoppedInto (s : State) (n : Word) (u : State) : Prop where
  control : SameControl s u
  sp : u.reg16 .sp = s.reg16 .sp + n
  stores : SameStores s u

theorem popReg_reg16 (u : State) (r q : Reg16) :
    (u.popReg r).reg16 q = if q = r then u.top else if q = .sp then u.reg16 .sp + 2#16 else u.reg16 q := by
  simp [State.popReg]

namespace PoppedInto

variable {s u : State} {n : Word}

theorem refl (s : State) : PoppedInto s 0#16 s :=
  ⟨(onlyRecords_refl s).sameControl, by simp, SameStores.rfl' s⟩

theorem top (h : PoppedInto s n u) : u.top = stackWord s n := by
  unfold State.top stackWord
  rw [h.stores.mem16, h.control.segs, h.sp]
  rfl

theorem popReg (h : PoppedInto s n u) {r : Reg16} (hr : r ≠ .sp) : PoppedInto s (n + 2#16) (u.popReg r) where
  control := h.control.drop.setReg16 r _
  sp := by rw [popReg_reg16, if_neg hr.symm, if_pos rfl, h.sp, BitVec.add_assoc]
  stores := (h.stores.trans (popped_one u).stores).setReg16 r _

/-- A word on the stack is passed over. -/
theorem skip (h : PoppedInto s n u) : PoppedInto s (n + 2#16) (u.setReg16 .sp (u.reg16 .sp + 2#16)) where
  control := h.control.setReg16 _ _
  sp := by rw [setReg16_reg16, if_pos rfl, h.sp, BitVec.add_assoc]
  stores := h.stores.setReg16 _ _

end PoppedInto

/-- What POPA leaves in the registers (R216). -/
theorem popAll_regs (s : State) : PoppedInto s 16#16 s.popAll
    ∧ s.popAll.reg16 .di = stackWord s 0#16 ∧ s.popAll.reg16 .si = stackWord s 2#16 ∧ s.popAll.reg16 .bp = stackWord s 4#16
    ∧ s.popAll.reg16 .bx = stackWord s 8#16 ∧ s.popAll.reg16 .dx = stackWord s 10#16
    ∧ s.popAll.reg16 .cx = stackWord s 12#16 ∧ s.popAll.reg16 .ax = stackWord s 14#16 := by
  have h0 : PoppedInto s 0#16 s := .refl s
  have h2 : PoppedInto s 2#16 _ := h0.popReg (r := .di) (by decide)
  have h4 : PoppedInto s 4#16 _ := h2.popReg (r := .si) (by decide)
  have h6 : PoppedInto s 6#16 _ := h4.popReg (r := .bp) (by decide)
  have h8 : PoppedInto s 8#16 _ := h6.skip
  have h10 : PoppedInto s 10#16 _ := h8.popReg (r := .bx) (by decide)
  have h12 : PoppedInto s 12#16 _ := h10.popReg (r := .dx) (by decide)
  have h14 : PoppedInto s 14#16 _ := h12.popReg (r := .cx) (by decide)
  have h16 : PoppedInto s 16#16 _ := h14.popReg (r := .ax) (by decide)
  refine ⟨h16, ?_⟩
  simp only [← h0.top, ← h2.top, ← h4.top, ← h8.top, ← h10.top, ← h12.top, ← h14.top]
  simp [State.popAll, popReg_reg16]

theorem popa_answers (s : State) : Answers .popa s fun t => Plain .popa s t ∧ t.flags = s.flags ∧ SameMem s t
    ∧ t.reg16 .di = stackWord s 0#16 ∧ t.reg16 .si = stackWord s 2#16 ∧ t.reg16 .bp = stackWord s 4#16
    ∧ t.reg16 .bx = stackWord s 8#16 ∧ t.reg16 .dx = stackWord s 10#16 ∧ t.reg16 .cx = stackWord s 12#16
    ∧ t.reg16 .ax = stackWord s 14#16 ∧ t.reg16 .sp = s.reg16 .sp + 16#16 := by
  have hx : exec .popa s = .next (s.popAll.advance .popa) := rfl
  obtain ⟨hpop, hdi, hsi, hbp, hbx, hdx, hcx, hax⟩ := popAll_regs s
  generalize s.popAll = u at hx hpop hdi hsi hbp hbx hdx hcx hax
  exact ⟨_, hx, hpop.control.plain _, hpop.control.flags, (hpop.stores.advance _).sameMem, hdi, hsi, hbp, hbx, hdx, hcx, hax,
    hpop.sp⟩

/-- The level of ENTER is taken modulo 32 (R409). -/
theorem exec_enterIwIb {s : State} {size : Word} {b : Byte} {n : Nat} (hb : b.toNat % 32 = n) :
    exec (.enterIwIb size b) s = .next ((s.enterFrame size n).advance (.enterIwIb size b)) := by
  have hmask : (b &&& 0x1F#8).toNat = b.toNat % 32 := by
    rw [BitVec.toNat_and]
    exact Nat.and_two_pow_sub_one_eq_mod _ 5
  rw [← hb, ← hmask]
  rfl

/-- The end of ENTER: BP is set to the frame address, and SP goes down by the size (R409). -/
def closeFrame (u : State) (frame size : Word) : State :=
  (u.setReg16 .bp frame).setReg16 .sp (u.reg16 .sp - size)

theorem enterFrame_zero (s : State) (size : Word) :
    s.enterFrame size 0 = closeFrame (s.pushReg .bp) ((s.pushReg .bp).reg16 .sp) size := rfl

theorem enterFrame_succ (s : State) (size : Word) (n : Nat) :
    s.enterFrame size (n + 1) = closeFrame (((s.pushReg .bp).copyDisplay n).push ((s.pushReg .bp).reg16 .sp))
      ((s.pushReg .bp).reg16 .sp) size := rfl

theorem closeFrame_answers {s u w : State} {i : Instr} {frame size : Word} (hctl : SameControl s u)
    (hregs : SameRegsBut [.sp, .bp] s u) (hmem : SameStores w u)
    (hx : exec i s = .next ((closeFrame u frame size).advance i)) :
    Answers i s fun t => Plain i s t ∧ t.flags = s.flags ∧ SameRegsBut [.sp, .bp] s t ∧ t.reg16 .bp = frame
      ∧ t.reg16 .sp = u.reg16 .sp - size ∧ MemAs w t := by
  have hc := (hctl.setReg16 .bp frame).setReg16 .sp (u.reg16 .sp - size)
  have hr := (hregs.setReg16 (r := .bp) (by decide) frame).setReg16 (r := .sp) (by decide) (u.reg16 .sp - size)
  exact ⟨_, hx, hc.plain i, hc.flags, hr, by simp [closeFrame], by simp [closeFrame],
    (((hmem.setReg16 .bp frame).setReg16 .sp _).advance i).sameMem⟩

/-- The first push of ENTER (R409). -/
theorem pushBp_pushed (s : State) : Pushed s [s.reg16 .bp] (s.pushReg .bp) :=
  (pushed_nil (onlyRecords_refl s)).pushReg (by decide)

theorem enter_level_zero (s : State) (size : Word) (b : Byte) (hb : b.toNat % 32 = 0) :
    Answers (.enterIwIb size b) s fun t => Plain (.enterIwIb size b) s t ∧ t.flags = s.flags ∧ SameRegsBut [.sp, .bp] s t
      ∧ t.reg16 .bp = s.reg16 .sp - 2#16 ∧ t.reg16 .sp = s.reg16 .sp - 2#16 - size
      ∧ MemAs (storesDown s s.segs.ss (s.reg16 .sp) [s.reg16 .bp]) t := by
  have hpush := pushBp_pushed s
  obtain ⟨hsp, hregs⟩ := hpush.sp
  have hx := exec_enterIwIb (s := s) (size := size) hb
  rw [enterFrame_zero] at hx
  have h := closeFrame_answers hpush.sameControl (hregs.mono (by decide)) hpush.stores hx
  rwa [hsp] at h

/-- ENTER with a level: the display is copied, and the frame address is pushed (R409). -/
theorem enter_level_succ (s : State) (size : Word) (b : Byte) (n : Nat) (hb : b.toNat % 32 = n + 1) :
    Answers (.enterIwIb size b) s fun t => Plain (.enterIwIb size b) s t ∧ t.flags = s.flags ∧ SameRegsBut [.sp, .bp] s t
      ∧ t.reg16 .bp = s.reg16 .sp - 2#16 ∧ t.reg16 .sp = s.reg16 .sp - 2#16 - BitVec.ofNat 16 (2 * (n + 1)) - size
      ∧ MemAs (storesDown
          (copiesDown (storesDown s s.segs.ss (s.reg16 .sp) [s.reg16 .bp]) s.segs.ss (s.reg16 .bp) (s.reg16 .sp - 2#16) n)
          s.segs.ss (s.reg16 .sp - 2#16 - BitVec.ofNat 16 (2 * n)) [s.reg16 .sp - 2#16]) t := by
  have hpush := pushBp_pushed s
  have hcopy := copyDisplay_copied n hpush.stores
  obtain ⟨hsp, hregs⟩ := hpush.sp
  have hframe : (s.pushReg .bp).reg16 .sp = s.reg16 .sp - 2#16 := hsp
  have hbp : (s.pushReg .bp).reg16 .bp = s.reg16 .bp := (hregs .bp (by decide)).1
  have hlow : ((s.pushReg .bp).copyDisplay n).reg16 .sp = s.reg16 .sp - 2#16 - BitVec.ofNat 16 (2 * n) := by
    rw [hcopy.sp, hframe]
  have hss : ((s.pushReg .bp).copyDisplay n).segs = s.segs := hcopy.segs.trans hpush.segs
  have hx := exec_enterIwIb (s := s) (size := size) hb
  rw [enterFrame_succ, hframe] at hx
  have hstores := (hcopy.stores.writeMem16 _ _ _).trans (push_stores _ (s.reg16 .sp - 2#16))
  rw [hframe, hbp, hpush.segs, hss, hlow] at hstores
  have hsame : SameRegsBut [.sp, .bp] s (((s.pushReg .bp).copyDisplay n).push (s.reg16 .sp - 2#16)) :=
    ((hregs.mono (by decide)).trans hcopy.regs).trans ((push_setSp _ _).2.mono (by decide))
  have hdown : s.reg16 .sp - 2#16 - BitVec.ofNat 16 (2 * n) - 2#16 = s.reg16 .sp - 2#16 - BitVec.ofNat 16 (2 * (n + 1)) := by
    rw [BitVec.sub_sub, Nat.mul_succ, BitVec.ofNat_add]
  obtain ⟨t, ht, hplain, hflags, hregs', hbp', hsp', hmem⟩ :=
    closeFrame_answers ((hpush.sameControl.trans hcopy.sameControl).push _) hsame hstores hx
  rw [push_reg16, if_pos rfl, hlow, hdown] at hsp'
  exact ⟨t, ht, hplain, hflags, hregs', hbp', hsp', hmem⟩

theorem leave_answers (s : State) :
    Answers .leave s fun t => Plain .leave s t ∧ t.flags = s.flags ∧ SameMem s t ∧ SameRegsBut [.sp, .bp] s t
      ∧ t.reg16 .sp = s.reg16 .bp + 2#16 ∧ t.reg16 .bp = s.mem16 s.segs.ss (s.reg16 .bp) := by
  have hnote := onlyRecords_note16 s .bp
  have hctl := ((hnote.sameControl.setReg16 .sp (s.reg16 .bp)).drop).setReg16 .bp (s.mem16 s.segs.ss (s.reg16 .bp))
  have hframe : s.leaveFrame
      = (((s.note16 .bp).setReg16 .sp (s.reg16 .bp)).drop).setReg16 .bp (s.mem16 s.segs.ss (s.reg16 .bp)) := by
    simp [State.leaveFrame, State.popReg, State.top, State.note16]
  have hregs : SameRegsBut [.sp, .bp] s s.leaveFrame := by
    have hset := (hnote.untouched.sameRegs [.sp, .bp]).setReg16 (r := .sp) (by decide) (s.reg16 .bp)
    rw [hframe]
    exact (hset.trans ((popped_one _).sp.2.mono (by decide))).setReg16 (by decide) _
  have hstores := ((hnote.untouched.stores.setReg16 .sp (s.reg16 .bp)).trans (popped_one _).stores).setReg16 .bp
    (s.mem16 s.segs.ss (s.reg16 .bp))
  rw [← hframe] at hctl hstores
  refine ⟨_, rfl, hctl.plain _, hctl.flags, (hstores.advance _).sameMem, hregs, ?_, ?_⟩
  · simp [hframe]
  · simp [hframe]

/-- Settles O16: the words pushed and popped in their order; ENTER by its level. -/
theorem stackBlocks : Obligations.StackBlocks := by
  unfold Obligations.StackBlocks
  refine ⟨fun s => ⟨(pushAll_pushed s).answers_block rfl, popa_answers s⟩, fun s size b =>
    ⟨enter_level_zero s size b, enter_level_succ s size b, leave_answers s⟩⟩

end Sys2Proof.Machine

namespace Sys2Proof.Machine

/-! ## XCHG (O17) -/

theorem onlyRecords_fetchPair8 (s : State) (e : Rm8) (x : Src8) : OnlyRecords s (s.fetchPair8 e x) :=
  (onlyRecords_refl s).record _

theorem onlyRecords_fetchPair16 (s : State) (e : Rm16) (x : Src16) : OnlyRecords s (s.fetchPair16 e x) :=
  (onlyRecords_refl s).record _

theorem xchgEbGb_reg (s : State) (g q : Reg8) :
    Answers (.xchgEbGb (.reg q) g) s fun t => Plain (.xchgEbGb (.reg q) g) s t ∧ t.flags = s.flags ∧ SameMem s t
      ∧ SameRegsBut [Reg8.parent g, Reg8.parent q] s t
      ∧ ∀ k, t.reg8 k = if k = g then s.reg8 q else if k = q then s.reg8 g else s.reg8 k := by
  have hrec := onlyRecords_fetchPair8 s (.reg q) (.rm (.reg g))
  have hctl := (hrec.sameControl.setReg8 q (s.reg8 g)).setReg8 g (s.reg8 q)
  have hregs := ((hrec.untouched.sameRegs [Reg8.parent g, Reg8.parent q]).setReg8 (r := q) (by simp) (s.reg8 g)).setReg8
    (r := g) (by simp) (s.reg8 q)
  have hstores := (hrec.untouched.stores.setReg8 q (s.reg8 g)).setReg8 g (s.reg8 q)
  refine ⟨_, rfl, hctl.plain _, hctl.flags, (hstores.advance _).sameMem, hregs, fun k => ?_⟩
  calc (((s.fetchPair8 (.reg q) (.rm (.reg g))).setReg8 q (s.reg8 g)).setReg8 g (s.reg8 q)).reg8 k
      = if k = g then s.reg8 q else if k = q then s.reg8 g else (s.fetchPair8 (.reg q) (.rm (.reg g))).reg8 k := by
        rw [setReg8_reg8, setReg8_reg8]
    _ = if k = g then s.reg8 q else if k = q then s.reg8 g else s.reg8 k := by rw [hrec.untouched.reg8]

/-- The exchange of two word registers, by either form (R217, R218). -/
theorem xchg16_reg {s : State} {i : Instr} {r p : Reg16} (hx : exec i s = .next ((s.xchg16 (.reg p) r).advance i)) :
    Answers i s fun t => Plain i s t ∧ t.flags = s.flags ∧ SameMem s t ∧ SameRegsBut [r, p] s t
      ∧ t.reg16 r = s.reg16 p ∧ t.reg16 p = s.reg16 r := by
  have hrec := onlyRecords_fetchPair16 s (.reg p) (.rm (.reg r))
  have hctl := (hrec.sameControl.setReg16 p (s.reg16 r)).setReg16 r (s.reg16 p)
  have hregs := ((hrec.untouched.sameRegs [r, p]).setReg16 (r := p) (by simp) (s.reg16 r)).setReg16 (r := r) (by simp)
    (s.reg16 p)
  have hstores := (hrec.untouched.stores.setReg16 p (s.reg16 r)).setReg16 r (s.reg16 p)
  have hvalue (q : Reg16) : ((s.xchg16 (.reg p) r).advance i).reg16 q
      = if q = r then s.reg16 p else if q = p then s.reg16 r else s.reg16 q := by
    rw [← hrec.untouched.reg16 q, ← setReg16_reg16, ← setReg16_reg16]
    rfl
  refine ⟨_, hx, hctl.plain i, hctl.flags, (hstores.advance i).sameMem, hregs, ?_, ?_⟩
  · rw [hvalue, if_pos rfl]
  · by_cases hpr : p = r
    · rw [hvalue, if_pos hpr, hpr]
    · rw [hvalue, if_neg hpr, if_pos rfl]

theorem xchgEbGb_mem (s : State) (g : Reg8) (m : Mem) :
    Answers (.xchgEbGb (.mem m) g) s fun t => Plain (.xchgEbGb (.mem m) g) s t ∧ t.flags = s.flags
      ∧ SetByteReg s t g (s.mem8 (s.eaSeg m) (s.eaOff m)) ∧ Stored8 s t (s.eaSeg m) (s.eaOff m) (s.reg8 g) := by
  have hrec := onlyRecords_fetchPair8 s (.mem m) (.rm (.reg g))
  have hctl := (hrec.sameControl.write8 (.mem (s.eaSeg m) (s.eaOff m)) (s.reg8 g)).setReg8 g
    (s.mem8 (s.eaSeg m) (s.eaOff m))
  obtain ⟨hregs, hstored⟩ := wrote8_write8 hrec.untouched (.mem m) (s.reg8 g)
  exact ⟨_, rfl, hctl.plain _, hctl.flags, hregs.setByteReg g _,
    hstored.of_same (((SameStores.rfl' _).setReg8 g _).advance _).sameMem⟩

theorem xchgEvGv_mem (s : State) (r : Reg16) (m : Mem) :
    Answers (.xchgEvGv (.mem m) r) s fun t => Plain (.xchgEvGv (.mem m) r) s t ∧ t.flags = s.flags
      ∧ SetWordReg s t r (s.mem16 (s.eaSeg m) (s.eaOff m)) ∧ Stored16 s t (s.eaSeg m) (s.eaOff m) (s.reg16 r) := by
  have hrec := onlyRecords_fetchPair16 s (.mem m) (.rm (.reg r))
  have hctl := (hrec.sameControl.write16 (.mem (s.eaSeg m) (s.eaOff m)) (s.reg16 r)).setReg16 r
    (s.mem16 (s.eaSeg m) (s.eaOff m))
  obtain ⟨hregs, hstored⟩ := wrote16_write16 hrec.untouched (.mem m) (s.reg16 r)
  exact ⟨_, rfl, hctl.plain _, hctl.flags, hregs.setWordReg r _,
    hstored.of_same (((SameStores.rfl' _).setReg16 r _).advance _).sameMem⟩

/-- Settles O17: both values are read before either operand is written. -/
theorem exchangeForms : Obligations.ExchangeForms := by
  unfold Obligations.ExchangeForms
  intro s g q r p m
  refine ⟨xchgEbGb_reg s g q, xchgEbGb_mem s g m, ?_, xchgEvGv_mem s r m⟩
  rintro i (rfl | ⟨rfl, rfl⟩)
  · exact xchg16_reg rfl
  · exact xchg16_reg rfl

/-! ## XLAT, LEA, LDS and LES (O18) -/

theorem xlat_answers (s : State) : Answers .xlat s fun t => Plain .xlat s t ∧ t.flags = s.flags ∧ SameMem s t
    ∧ SetByteReg s t .al (s.mem8 (sourceSeg s) (s.reg16 .bx + (s.reg8 .al).setWidth 16)) := by
  have hrec : OnlyRecords s (((s.note16 .bx).note8 .al).noteMem8 (s.segOr .ds) (s.reg16 .bx + zextByte (s.reg8 .al))) :=
    ((onlyRecords_note16 s .bx).record _).record _
  rw [← segOr_ds]
  obtain ⟨t, hx, hplain, hflags, hset, hmem⟩ := moves8 (i := .xlat) (e := .reg .al) hrec rfl
  exact ⟨t, hx, hplain, hflags, hmem, hset⟩

/-- The entries of an effective offset are those of its base registers (R163, R53). -/
theorem noteEa_faults (s : State) (m : Mem) : (s.noteEa m).faults = s.faults
    ++ (match m with | .direct _ => [] | .based b _ => (baseRegs b).flatMap (unsetWordReads s)) := by
  cases m with
  | direct off => rfl
  | based b d =>
    have hentries : (s.noteEa (.based b d)).faults = s.faults ++ s.unsetRegs (baseRegs b) := rfl
    rw [hentries, unsetRegs_eq, entries, List.flatMap_map]
    rfl

theorem lea_answers (s : State) (r : Reg16) (m : Mem) :
    Answers (.leaGvM r m) s fun t => Plain (.leaGvM r m) s t ∧ t.flags = s.flags ∧ SameMem s t
      ∧ SetWordReg s t r (s.eaOff m)
      ∧ t.faults = s.faults
        ++ (match m with | .direct _ => [] | .based b _ => (baseRegs b).flatMap (unsetWordReads s)) := by
  have hrec := onlyRecords_noteEa s m
  have hctl := hrec.sameControl.setReg16 r (s.eaOff m)
  exact ⟨_, rfl, hctl.plain _, hctl.flags, ((hrec.untouched.stores.setReg16 r _).advance _).sameMem,
    setWordReg_setReg16 hrec.untouched r _, noteEa_faults s m⟩

/-- A far pointer is loaded into a general register and a segment register (R221, R222). -/
theorem loadFar_answers {s : State} {i : Instr} {q : SReg} {r : Reg16} {m : Mem}
    (hx : exec i s = .next ((s.loadFar q r m).advance i)) :
    Answers i s fun t => SameCore s t ∧ t.ip = s.ipNext i ∧ t.flags = s.flags ∧ SameMem s t
      ∧ SetWordReg s t r (s.mem16 (s.eaSeg m) (s.eaOff m))
      ∧ t.segs = (s.setSReg q (s.mem16 (s.eaSeg m) (s.eaOff m + 2#16))).segs := by
  have hrec := onlyRecords_noteFar s m
  have hctl := hrec.sameControl.setReg16 r (s.mem16 (s.eaSeg m) (s.eaOff m))
  have hload : s.loadFar q r m = ((s.noteFar m).setReg16 r (s.mem16 (s.eaSeg m) (s.eaOff m))).setSReg q
      (s.mem16 (s.eaSeg m) (s.eaOff m + 2#16)) := rfl
  obtain ⟨hvalue, hregs⟩ := setWordReg_setReg16 hrec.untouched r (s.mem16 (s.eaSeg m) (s.eaOff m))
  rw [hload] at hx
  have hdata := sameData_loadSeg ((s.noteFar m).setReg16 r (s.mem16 (s.eaSeg m) (s.eaOff m))) i q
    (s.mem16 (s.eaSeg m) (s.eaOff m + 2#16))
  exact ⟨_, hx, hctl.core.trans ⟨by constructor <;> simp, by simp, by simp, by simp, by simp⟩, by simp [hctl.ipNext],
    hdata.flags.trans hctl.flags, (hrec.untouched.stores.setReg16 r _).sameMem.trans hdata.mem,
    ⟨(hdata.regs r List.not_mem_nil).1.trans hvalue, hregs.trans (hdata.regs.mono (by simp))⟩,
    by cases q <;> simp [State.setSReg, hrec.sameControl.segs]⟩

/-- Settles O18: one register write after the reads of the address, and for LDS and LES a load of a segment register. -/
theorem addressLoads : Obligations.AddressLoads := by
  unfold Obligations.AddressLoads
  intro s r m
  exact ⟨xlat_answers s, lea_answers s r m, loadFar_answers (q := .ds) rfl, loadFar_answers (q := .es) rfl⟩

/-! ## IN and OUT (O20) -/

/-- A port write does not depend on the fault record. -/
theorem record_portWrite8 (s : State) (l : List FaultRecord) (p : Word) (v : Byte) :
    (s.record l).portWrite8 p v = (s.portWrite8 p v).record l := by
  have howner : (s.record l).portOwner p = s.portOwner p := rfl
  unfold State.portWrite8
  rw [howner]
  cases s.portOwner p with
  | none => rfl
  | some q => cases q <;> rfl

/-- OUT of a byte, after some reads (R229, R230). -/
theorem out_byte {s u : State} {i : Instr} {p : Word} {v : Byte} (h : OnlyRecords s u)
    (hx : exec i s = .next ((u.portWrite8 p v).advance i)) :
    Answers i s fun t => PortWritten s (s.portWrite8 p v) t ∧ SameRegsBut [] s t ∧ t.ip = s.ipNext i := by
  obtain ⟨l, rfl⟩ := h
  rw [record_portWrite8] at hx
  exact ⟨_, hx, by constructor <;> simp, fun r _ => by simp, by simp⟩

/-- OUT of a word, after some reads: its low byte to the port, its high byte to the next. -/
theorem out_word {s u : State} {i : Instr} {p v : Word} (h : OnlyRecords s u)
    (hx : exec i s = .next ((u.portWrite16 p v).advance i)) :
    Answers i s fun t => PortWritten s ((s.portWrite8 p (loByte v)).portWrite8 (p + 1#16) (hiByte v)) t
      ∧ SameRegsBut [] s t ∧ t.ip = s.ipNext i := by
  obtain ⟨l, rfl⟩ := h
  rw [State.portWrite16, record_portWrite8, record_portWrite8] at hx
  exact ⟨_, hx, by constructor <;> simp, fun r _ => by simp, by simp⟩

/-- Settles O20: IN is a move of what the ports give; OUT is one port write or two after the reads of its operands. -/
theorem portInputAndOutput : Obligations.PortInputAndOutput := by
  unfold Obligations.PortInputAndOutput
  intro s b
  have hnone := onlyRecords_refl s
  have hdx := onlyRecords_note16 s .dx
  exact ⟨moves8 hnone rfl, moves8 hdx rfl, moves16 hnone rfl, moves16 hdx rfl,
    out_byte (onlyRecords_note8 s .al) rfl, out_byte (hdx.record _) rfl,
    out_word (v := s.reg16 .ax) (onlyRecords_note16 s .ax) rfl, out_word (v := s.reg16 .ax) (hdx.record _) rfl⟩

end Sys2Proof.Machine

namespace Sys2Proof.Machine

/-! ## Addition, subtraction and comparison (O1, O2, O3) -/

section Forms

variable {s : State} {i : Instr}

/-- ADD of width 8 (R261). -/
theorem add8_adds {e : Rm8} {x : Src8} (hx : exec i s = .next ((s.alu8 .add e x).advance i)) :
    Adds8 s i e (s.src8 x) false :=
  alu8_adds s i .add e x false (by decide) (fun _ _ => rfl) (fun _ _ => rfl) hx

/-- ADD of width 16 (R261). -/
theorem add16_adds {e : Rm16} {x : Src16} (hx : exec i s = .next ((s.alu16 .add e x).advance i)) :
    Adds16 s i e (s.src16 x) false :=
  alu16_adds s i .add e x false (by decide) (fun _ _ => rfl) (fun _ _ => rfl) hx

/-- ADC of width 8 (R262). -/
theorem adc8_adds {e : Rm8} {x : Src8} (hx : exec i s = .next ((s.alu8 .adc e x).advance i)) :
    Adds8 s i e (s.src8 x) (flagGet s.flags .cf) :=
  alu8_adds s i .adc e x _ (by decide) (fun _ _ => rfl) (fun _ _ => rfl) hx

/-- ADC of width 16 (R262). -/
theorem adc16_adds {e : Rm16} {x : Src16} (hx : exec i s = .next ((s.alu16 .adc e x).advance i)) :
    Adds16 s i e (s.src16 x) (flagGet s.flags .cf) :=
  alu16_adds s i .adc e x _ (by decide) (fun _ _ => rfl) (fun _ _ => rfl) hx

/-- SUB of width 8 (R263). -/
theorem sub8_subs {e : Rm8} {x : Src8} (hx : exec i s = .next ((s.alu8 .sub e x).advance i)) :
    Subs8 s i e (s.src8 x) false :=
  alu8_subs s i .sub e x false (by decide) (fun _ _ => rfl) (fun _ _ => rfl) hx

/-- SUB of width 16 (R263). -/
theorem sub16_subs {e : Rm16} {x : Src16} (hx : exec i s = .next ((s.alu16 .sub e x).advance i)) :
    Subs16 s i e (s.src16 x) false :=
  alu16_subs s i .sub e x false (by decide) (fun _ _ => rfl) (fun _ _ => rfl) hx

/-- SBB of width 8 (R264). -/
theorem sbb8_subs {e : Rm8} {x : Src8} (hx : exec i s = .next ((s.alu8 .sbb e x).advance i)) :
    Subs8 s i e (s.src8 x) (flagGet s.flags .cf) :=
  alu8_subs s i .sbb e x _ (by decide) (fun _ _ => rfl) (fun _ _ => rfl) hx

/-- SBB of width 16 (R264). -/
theorem sbb16_subs {e : Rm16} {x : Src16} (hx : exec i s = .next ((s.alu16 .sbb e x).advance i)) :
    Subs16 s i e (s.src16 x) (flagGet s.flags .cf) :=
  alu16_subs s i .sbb e x _ (by decide) (fun _ _ => rfl) (fun _ _ => rfl) hx

end Forms

/-- Settles O1: each form is the addition of its source operand, with CF for ADC. -/
theorem addAndAdcForms : Obligations.AddAndAdcForms := by
  unfold Obligations.AddAndAdcForms
  intro s e g x r b v
  exact ⟨add8_adds (x := .rm (.reg g)) rfl, add16_adds (x := .rm (.reg r)) rfl,
    add8_adds (x := .rm e) rfl, add16_adds (x := .rm x) rfl,
    add8_adds (x := .imm b) rfl, add16_adds (x := .imm v) rfl,
    add8_adds (x := .imm b) rfl, add16_adds (x := .imm v) rfl,
    add8_adds (x := .imm b) rfl, add16_adds (x := .imm (sextByte b)) rfl,
    adc8_adds (x := .rm (.reg g)) rfl, adc16_adds (x := .rm (.reg r)) rfl,
    adc8_adds (x := .rm e) rfl, adc16_adds (x := .rm x) rfl,
    adc8_adds (x := .imm b) rfl, adc16_adds (x := .imm v) rfl,
    adc8_adds (x := .imm b) rfl, adc16_adds (x := .imm v) rfl,
    adc8_adds (x := .imm b) rfl, adc16_adds (x := .imm (sextByte b)) rfl⟩

/-- Settles O2: each form is the subtraction of its source operand, with CF for SBB. -/
theorem subAndSbbForms : Obligations.SubAndSbbForms := by
  unfold Obligations.SubAndSbbForms
  intro s e g x r b v
  exact ⟨sub8_subs (x := .rm (.reg g)) rfl, sub16_subs (x := .rm (.reg r)) rfl,
    sub8_subs (x := .rm e) rfl, sub16_subs (x := .rm x) rfl,
    sub8_subs (x := .imm b) rfl, sub16_subs (x := .imm v) rfl,
    sub8_subs (x := .imm b) rfl, sub16_subs (x := .imm v) rfl,
    sub8_subs (x := .imm b) rfl, sub16_subs (x := .imm (sextByte b)) rfl,
    sbb8_subs (x := .rm (.reg g)) rfl, sbb16_subs (x := .rm (.reg r)) rfl,
    sbb8_subs (x := .rm e) rfl, sbb16_subs (x := .rm x) rfl,
    sbb8_subs (x := .imm b) rfl, sbb16_subs (x := .imm v) rfl,
    sbb8_subs (x := .imm b) rfl, sbb16_subs (x := .imm v) rfl,
    sbb8_subs (x := .imm b) rfl, sbb16_subs (x := .imm (sextByte b)) rfl⟩

/-- Settles O3: each form is the comparison of its two operands. -/
theorem cmpForms : Obligations.CmpForms := by
  unfold Obligations.CmpForms
  intro s e g x r b v
  exact ⟨alu8_compares s _ e (.rm (.reg g)) rfl, alu16_compares s _ x (.rm (.reg r)) rfl,
    alu8_compares s _ (.reg g) (.rm e) rfl, alu16_compares s _ (.reg r) (.rm x) rfl,
    alu8_compares s _ (.reg .al) (.imm b) rfl, alu16_compares s _ (.reg .ax) (.imm v) rfl,
    alu8_compares s _ e (.imm b) rfl, alu16_compares s _ x (.imm v) rfl,
    alu8_compares s _ e (.imm b) rfl, alu16_compares s _ x (.imm (sextByte b)) rfl⟩

/-! ## INC, DEC, NEG and NOT (O6) -/

/-- Settles O6: each form is one unary operation; the value and the flags of each are those of its laws. -/
theorem incDecNegNotForms : Obligations.IncDecNegNotForms := by
  unfold Obligations.IncDecNegNotForms
  intro s e x r
  have inc8 (a : Byte) := incFlags_spec (by omega) a s.flags
  have inc16 (a : Word) := incFlags_spec (by omega) a s.flags
  have dec8 (a : Byte) := decFlags_spec (by omega) a s.flags
  have dec16 (a : Word) := decFlags_spec (by omega) a s.flags
  have neg8 (a : Byte) := neg_spec (by omega) a s.flags
  have neg16 (a : Word) := neg_spec (by omega) a s.flags
  exact ⟨unary16_spec s _ _ _ _ inc16 rfl, unary8_spec s _ _ _ _ inc8 rfl, unary16_spec s _ _ _ _ inc16 rfl,
    unary16_spec s _ _ _ _ dec16 rfl, unary8_spec s _ _ _ _ dec8 rfl, unary16_spec s _ _ _ _ dec16 rfl,
    unary8_spec s _ _ _ _ neg8 rfl, unary16_spec s _ _ _ _ neg16 rfl,
    unary8_spec s _ _ _ _ (fun a => not8_spec a _) rfl, unary16_spec s _ _ _ _ (fun a => not16_spec a _) rfl⟩

end Sys2Proof.Machine

namespace Sys2Proof.Machine

/-! ## Products (O7) -/

section Products

variable {s u : State} {i : Instr} {op : Config.UndefOp} {w a b : Nat} {big : Bool}

/-- A multiplication that writes one register, after its reads. -/
theorem multiplies_reg {r : Reg16} {v : Word} (h : OnlyRecords s u)
    (hx : exec i s = .next (((u.setReg16 r v).setFlags (mulFlags op w a b big s.flags)).advance i)) :
    Answers i s fun t => Plain i s t ∧ SameMem s t ∧ SameRegsBut [r] s t ∧ t.reg16 r = v ∧ MulFlagsOf big s.flags t.flags := by
  obtain ⟨hplain, hmem, hvalue, hregs⟩ := plain_setReg (i := i) h r v (mulFlags op w a b big s.flags)
  exact ⟨_, hx, hplain, hmem, hregs, hvalue, mulFlags_spec op w a b big s.flags⟩

/-- A multiplication that writes a product of width 32 to DX and AX, after its reads. -/
theorem multiplies_wide {p : BitVec 32} (h : OnlyRecords s u)
    (hx : exec i s = .next ((((u.setReg16 .dx (p.extractLsb' 16 16)).setReg16 .ax (p.extractLsb' 0 16)).setFlags
      (mulFlags op w a b big s.flags)).advance i)) :
    Answers i s fun t => Plain i s t ∧ SameMem s t ∧ SameRegsBut [.ax, .dx] s t ∧ t.reg16 .dx = p.extractLsb' 16 16
      ∧ t.reg16 .ax = p.extractLsb' 0 16 ∧ MulFlagsOf big s.flags t.flags := by
  obtain ⟨hplain, hmem, hregs⟩ := plain_setRegs (i := i) h .dx .ax (p.extractLsb' 16 16) (p.extractLsb' 0 16)
    (mulFlags op w a b big s.flags)
  exact ⟨_, hx, hplain, hmem, hregs, by simp, by simp, mulFlags_spec op w a b big s.flags⟩

end Products

theorem reg8_ah (s : State) : s.reg8 .ah = hiByte (s.reg16 .ax) := rfl

theorem reg8_al (s : State) : s.reg8 .al = loByte (s.reg16 .ax) := rfl

/-- A value is not 0 as a number or as bits. -/
theorem decide_ne_zero {w : Nat} (x : BitVec w) : decide (x ≠ 0#w) = decide (x.toNat ≠ 0) :=
  decide_eq_decide.mpr (not_congr (by rw [BitVec.toNat_eq, BitVec.toNat_zero]))

theorem mulEb_answers (s : State) (e : Rm8) : Answers (.mulEb e) s fun t => Plain (.mulEb e) s t ∧ SameMem s t
    ∧ SameRegsBut [.ax] s t ∧ (t.reg16 .ax).toNat = (s.reg8 .al).toNat * (s.rm8 e).toNat
    ∧ MulFlagsOf (decide ((t.reg8 .ah).toNat ≠ 0)) s.flags t.flags := by
  obtain ⟨t, hx, hplain, hmem, hregs, hax, hflags⟩ := multiplies_reg (i := .mulEb e) (onlyRecords_fetchMul8 s e) rfl
  have hfits : (s.reg8 .al).toNat * (s.rm8 e).toNat < 2 ^ 8 * 2 ^ 8 := Nat.mul_lt_mul'' (s.reg8 .al).isLt (s.rm8 e).isLt
  refine ⟨t, hx, hplain, hmem, hregs, ?_, ?_⟩
  · rw [hax, BitVec.toNat_ofNat]
    exact Nat.mod_eq_of_lt hfits
  · rwa [reg8_ah, hax, ← decide_ne_zero]

theorem mulEv_answers (s : State) (x : Rm16) : Answers (.mulEv x) s fun t => Plain (.mulEv x) s t ∧ SameMem s t
    ∧ SameRegsBut [.ax, .dx] s t
    ∧ (t.reg16 .dx).toNat * 65536 + (t.reg16 .ax).toNat = (s.reg16 .ax).toNat * (s.rm16 x).toNat
    ∧ MulFlagsOf (decide ((t.reg16 .dx).toNat ≠ 0)) s.flags t.flags := by
  obtain ⟨t, hx, hplain, hmem, hregs, hdx, hax, hflags⟩ := multiplies_wide (i := .mulEv x) (onlyRecords_fetchMul16 s x) rfl
  have hfits : (s.reg16 .ax).toNat * (s.rm16 x).toNat < 2 ^ 16 * 2 ^ 16 := Nat.mul_lt_mul'' (s.reg16 .ax).isLt (s.rm16 x).isLt
  refine ⟨t, hx, hplain, hmem, hregs, ?_, ?_⟩
  · rw [hdx, hax, words_toNat, BitVec.toNat_ofNat]
    exact Nat.mod_eq_of_lt hfits
  · rwa [hdx, ← decide_ne_zero]

theorem imulEb_answers (s : State) (e : Rm8) : Answers (.imulEb e) s fun t => Plain (.imulEb e) s t ∧ SameMem s t
    ∧ SameRegsBut [.ax] s t ∧ (t.reg16 .ax).toInt = (s.reg8 .al).toInt * (s.rm8 e).toInt
    ∧ MulFlagsOf (overflows 8 ((s.reg8 .al).toInt * (s.rm8 e).toInt)) s.flags t.flags := by
  obtain ⟨t, hx, hplain, hmem, hregs, hax, hflags⟩ := multiplies_reg (i := .imulEb e) (onlyRecords_fetchMul8 s e) rfl
  obtain ⟨ha, ha'⟩ := toInt_bounds8 (s.reg8 .al)
  obtain ⟨hb, hb'⟩ := toInt_bounds8 (s.rm8 e)
  obtain ⟨hp, hp'⟩ := mul_bounds ha (by omega : _ ≤ (128 : Int)) hb (by omega)
  refine ⟨t, hx, hplain, hmem, hregs, ?_, ?_⟩
  · rw [hax, toInt_ofInt_of_bounds (w := 15) (by omega) (by omega)]
  · rwa [← signedBig_eq]

theorem imulEv_answers (s : State) (x : Rm16) : Answers (.imulEv x) s fun t => Plain (.imulEv x) s t ∧ SameMem s t
    ∧ SameRegsBut [.ax, .dx] s t
    ∧ (t.reg16 .dx).toInt * 65536 + (t.reg16 .ax).toNat = (s.reg16 .ax).toInt * (s.rm16 x).toInt
    ∧ MulFlagsOf (overflows 16 ((s.reg16 .ax).toInt * (s.rm16 x).toInt)) s.flags t.flags := by
  obtain ⟨t, hx, hplain, hmem, hregs, hdx, hax, hflags⟩ := multiplies_wide (i := .imulEv x) (onlyRecords_fetchMul16 s x) rfl
  obtain ⟨ha, ha'⟩ := toInt_bounds16 (s.reg16 .ax)
  obtain ⟨hb, hb'⟩ := toInt_bounds16 (s.rm16 x)
  obtain ⟨hp, hp'⟩ := mul_bounds ha (by omega : _ ≤ (32768 : Int)) hb (by omega)
  refine ⟨t, hx, hplain, hmem, hregs, ?_, ?_⟩
  · rw [hdx, hax, words_toInt, toInt_ofInt_of_bounds (w := 31) (by omega) (by omega)]
  · rwa [← signedBig_eq]

/-- IMUL of three operands: the product modulo 2^16 (R273). -/
theorem imul3_answers {s : State} {i : Instr} {r : Reg16} {x : Rm16} {v : Word}
    (hx : exec i s = .next ((s.imul3 r x v).advance i)) :
    Answers i s fun t => Plain i s t ∧ SameMem s t ∧ SameRegsBut [r] s t
      ∧ ((t.reg16 r).toNat : Int) = (s.rm16 x).toInt * v.toInt % 65536
      ∧ MulFlagsOf (overflows 16 ((s.rm16 x).toInt * v.toInt)) s.flags t.flags := by
  obtain ⟨t, hx, hplain, hmem, hregs, hvalue, hflags⟩ := multiplies_reg (onlyRecords_fetch16 s x) hx
  refine ⟨t, hx, hplain, hmem, hregs, ?_, ?_⟩
  · rw [hvalue, BitVec.toNat_ofInt, Int.toNat_of_nonneg (Int.emod_nonneg _ (by decide))]
    rfl
  · rwa [← signedBig_eq]

theorem sextByte_toInt (b : Byte) : (sextByte b).toInt = b.toInt := BitVec.toInt_signExtend_of_le (by decide)

/-- Settles O7: the product fits the registers that are written; a sign-extended immediate has the byte's value. -/
theorem multiplyForms : Obligations.MultiplyForms := by
  unfold Obligations.MultiplyForms
  intro s e x r b v
  have hbyte := imul3_answers (i := .imulGvEvIbs r x b) (s := s) rfl
  rw [sextByte_toInt] at hbyte
  exact ⟨mulEb_answers s e, mulEv_answers s x, imulEb_answers s e, imulEv_answers s x, imul3_answers rfl, hbyte⟩

end Sys2Proof.Machine

namespace Sys2Proof.Machine

/-! ## Quotients and remainders (O8) -/

/-- A division of width 8 with a quotient and a remainder, after its reads. -/
theorem divides8 {s u : State} {i : Instr} {op : Config.UndefOp} {n : Word} {d q r : Byte} (h : OnlyRecords s u)
    (hx : exec i s = .next (u.divWrite8 i op n d (some (q, r)))) :
    Answers i s fun t => Plain i s t ∧ SameMem s t ∧ SameRegsBut [.ax] s t ∧ t.reg8 .al = q ∧ t.reg8 .ah = r
      ∧ KeptFlags arithFlags s.flags t.flags :=
  ⟨_, hx, divWrite8_some h i op n d q r⟩

/-- A division of width 16 with a quotient and a remainder, after its reads. -/
theorem divides16 {s u : State} {i : Instr} {op : Config.UndefOp} {n : BitVec 32} {d q r : Word} (h : OnlyRecords s u)
    (hx : exec i s = .next (u.divWrite16 i op n d (some (q, r)))) :
    Answers i s fun t => Plain i s t ∧ SameMem s t ∧ SameRegsBut [.ax, .dx] s t ∧ t.reg16 .ax = q ∧ t.reg16 .dx = r
      ∧ KeptFlags arithFlags s.flags t.flags :=
  ⟨_, hx, divWrite16_some h i op n d q r⟩

/-- A quotient that fits is the signed value of its bits (R275). -/
theorem toInt_ofInt_of_idivFits {c : Cfg} {w : Nat} {q : Int} (h : idivFits c (w + 1) q) : (BitVec.ofInt (w + 1) q).toInt = q := by
  obtain ⟨hlo, hhi⟩ := h
  refine toInt_ofInt_of_bounds ?_ hhi
  rw [Nat.add_sub_cancel] at hlo
  split at hlo <;> omega

section Divisions

variable (s : State) (e : Rm8) (x : Rm16) (b : Byte)

theorem exec_divEb : exec (.divEb e) s = .next ((s.fetchDiv8 e).divWrite8 (.divEb e) .div (s.reg16 .ax) (s.rm8 e)
    (divU 8 (s.reg16 .ax).toNat (s.rm8 e).toNat)) := rfl

theorem exec_divEv : exec (.divEv x) s = .next ((s.fetchDiv16 x).divWrite16 (.divEv x) .div s.dxax (s.rm16 x)
    (divU 16 s.dxax.toNat (s.rm16 x).toNat)) := rfl

theorem exec_idivEb : exec (.idivEb e) s = .next ((s.fetchDiv8 e).divWrite8 (.idivEb e) .idiv (s.reg16 .ax) (s.rm8 e)
    (divS s.cfg.idivMinOk 8 (s.reg16 .ax).toInt (s.rm8 e).toInt)) := rfl

theorem exec_idivEv : exec (.idivEv x) s = .next ((s.fetchDiv16 x).divWrite16 (.idivEv x) .idiv s.dxax (s.rm16 x)
    (divS s.cfg.idivMinOk 16 s.dxax.toInt (s.rm16 x).toInt)) := rfl

theorem divEb_answers (hd : (s.rm8 e).toNat ≠ 0) (hq : (s.reg16 .ax).toNat / (s.rm8 e).toNat < 2 ^ 8) :
    Answers (.divEb e) s fun t => Plain (.divEb e) s t ∧ SameMem s t ∧ SameRegsBut [.ax] s t
      ∧ (t.reg8 .al).toNat = (s.reg16 .ax).toNat / (s.rm8 e).toNat
      ∧ (t.reg8 .ah).toNat = (s.reg16 .ax).toNat % (s.rm8 e).toNat ∧ KeptFlags arithFlags s.flags t.flags := by
  have hr : (s.reg16 .ax).toNat % (s.rm8 e).toNat < 2 ^ 8 :=
    (Nat.mod_lt _ (Nat.pos_of_ne_zero hd)).trans (s.rm8 e).isLt
  have hx := exec_divEb s e
  rw [divU_some hd hq] at hx
  obtain ⟨t, ht, hplain, hmem, hregs, hal, hah, hflags⟩ := divides8 (onlyRecords_fetchDiv8 s e) hx
  refine ⟨t, ht, hplain, hmem, hregs, ?_, ?_, hflags⟩
  · rw [hal, BitVec.toNat_ofNat, Nat.mod_eq_of_lt hq]
  · rw [hah, BitVec.toNat_ofNat, Nat.mod_eq_of_lt hr]

theorem divEv_answers (hd : (s.rm16 x).toNat ≠ 0)
    (hq : ((s.reg16 .dx).toNat * 65536 + (s.reg16 .ax).toNat) / (s.rm16 x).toNat < 2 ^ 16) :
    Answers (.divEv x) s fun t => Plain (.divEv x) s t ∧ SameMem s t ∧ SameRegsBut [.ax, .dx] s t
      ∧ (t.reg16 .ax).toNat = ((s.reg16 .dx).toNat * 65536 + (s.reg16 .ax).toNat) / (s.rm16 x).toNat
      ∧ (t.reg16 .dx).toNat = ((s.reg16 .dx).toNat * 65536 + (s.reg16 .ax).toNat) % (s.rm16 x).toNat
      ∧ KeptFlags arithFlags s.flags t.flags := by
  rw [← dxax_toNat] at hq ⊢
  have hr : s.dxax.toNat % (s.rm16 x).toNat < 2 ^ 16 := (Nat.mod_lt _ (Nat.pos_of_ne_zero hd)).trans (s.rm16 x).isLt
  have hx := exec_divEv s x
  rw [divU_some hd hq] at hx
  obtain ⟨t, ht, hplain, hmem, hregs, hax, hdx, hflags⟩ := divides16 (onlyRecords_fetchDiv16 s x) hx
  refine ⟨t, ht, hplain, hmem, hregs, ?_, ?_, hflags⟩
  · rw [hax, BitVec.toNat_ofNat, Nat.mod_eq_of_lt hq]
  · rw [hdx, BitVec.toNat_ofNat, Nat.mod_eq_of_lt hr]

theorem idivEb_answers (hd : (s.rm8 e).toInt ≠ 0) (hq : idivFits s.cfg 8 ((s.reg16 .ax).toInt.tdiv (s.rm8 e).toInt)) :
    Answers (.idivEb e) s fun t => Plain (.idivEb e) s t ∧ SameMem s t ∧ SameRegsBut [.ax] s t
      ∧ (t.reg8 .al).toInt = (s.reg16 .ax).toInt.tdiv (s.rm8 e).toInt
      ∧ (t.reg8 .ah).toInt = (s.reg16 .ax).toInt.tmod (s.rm8 e).toInt ∧ KeptFlags arithFlags s.flags t.flags := by
  obtain ⟨hlo, hhi⟩ := toInt_bounds8 (s.rm8 e)
  obtain ⟨hr, hr'⟩ := tmod_bounds (n := (s.reg16 .ax).toInt) (B := 128) hd hlo (by omega)
  have hx := exec_idivEb s e
  rw [divS_some hd hq] at hx
  obtain ⟨t, ht, hplain, hmem, hregs, hal, hah, hflags⟩ := divides8 (onlyRecords_fetchDiv8 s e) hx
  refine ⟨t, ht, hplain, hmem, hregs, ?_, ?_, hflags⟩
  · rw [hal, toInt_ofInt_of_idivFits hq]
  · rw [hah, toInt_ofInt_of_bounds (w := 7) (by omega) (by omega)]

theorem idivEv_answers (hd : (s.rm16 x).toInt ≠ 0)
    (hq : idivFits s.cfg 16 (((s.reg16 .dx).toInt * 65536 + (s.reg16 .ax).toNat).tdiv (s.rm16 x).toInt)) :
    Answers (.idivEv x) s fun t => Plain (.idivEv x) s t ∧ SameMem s t ∧ SameRegsBut [.ax, .dx] s t
      ∧ (t.reg16 .ax).toInt = ((s.reg16 .dx).toInt * 65536 + (s.reg16 .ax).toNat).tdiv (s.rm16 x).toInt
      ∧ (t.reg16 .dx).toInt = ((s.reg16 .dx).toInt * 65536 + (s.reg16 .ax).toNat).tmod (s.rm16 x).toInt
      ∧ KeptFlags arithFlags s.flags t.flags := by
  rw [← dxax_toInt] at hq ⊢
  obtain ⟨hlo, hhi⟩ := toInt_bounds16 (s.rm16 x)
  obtain ⟨hr, hr'⟩ := tmod_bounds (n := s.dxax.toInt) (B := 32768) hd hlo (by omega)
  have hx := exec_idivEv s x
  rw [divS_some hd hq] at hx
  obtain ⟨t, ht, hplain, hmem, hregs, hax, hdx, hflags⟩ := divides16 (onlyRecords_fetchDiv16 s x) hx
  refine ⟨t, ht, hplain, hmem, hregs, ?_, ?_, hflags⟩
  · rw [hax, toInt_ofInt_of_idivFits hq]
  · rw [hdx, toInt_ofInt_of_bounds (w := 15) (by omega) (by omega)]

theorem aam_answers (hb : aamBase s b ≠ 0) : Answers (.aamIb b) s fun t => Plain (.aamIb b) s t ∧ SameMem s t
    ∧ SameRegsBut [.ax] s t
    ∧ (t.reg8 .ah).toNat = (s.reg8 .al).toNat / aamBase s b ∧ (t.reg8 .al).toNat = (s.reg8 .al).toNat % aamBase s b
    ∧ SzpOf (t.reg8 .al) t.flags ∧ KeptFlags arithFlags s.flags t.flags := by
  have hal := (s.reg8 .al).isLt
  obtain ⟨hszp, hkept⟩ := aamdFlags_spec .aam (s.reg16 .ax) (s.aamdBase b) (loByte (aamRes (s.reg8 .al) (s.aamdBase b))) s.flags
  obtain ⟨hplain, hmem, hvalue, hregs⟩ := plain_setReg (i := .aamIb b) (onlyRecords_note8 s .al) .ax
    (aamRes (s.reg8 .al) (s.aamdBase b))
    (aamdFlags .aam (s.reg16 .ax) (s.aamdBase b) (loByte (aamRes (s.reg8 .al) (s.aamdBase b))) s.flags)
  refine ⟨_, if_neg (mt (aamdBase_eq_zero_iff s b).mp hb), hplain, hmem, hregs, ?_, ?_, ?_, hkept⟩
  · rw [reg8_ah, hvalue, aamRes, hiByte_append, BitVec.toNat_ofNat, aamdBase_toNat]
    exact Nat.mod_eq_of_lt ((Nat.div_le_self _ _).trans_lt hal)
  · rw [reg8_al, hvalue, aamRes, loByte_append, BitVec.toNat_ofNat, aamdBase_toNat]
    exact Nat.mod_eq_of_lt ((Nat.mod_le _ _).trans_lt hal)
  · rwa [reg8_al, hvalue]

end Divisions

/-- Settles O8: the quotient fits by hypothesis, and the remainder because it is smaller than the divisor. -/
theorem divisionCompletes : Obligations.DivisionCompletes := by
  unfold Obligations.DivisionCompletes
  exact ⟨fun s e x => ⟨divEb_answers s e, divEv_answers s x, idivEb_answers s e, idivEv_answers s x⟩, aam_answers⟩

/-! ## Divide errors (O9) -/

/-- The return address of a divide error, from a state after some reads (R481). -/
theorem OnlyRecords.divErrIp {s u : State} (h : OnlyRecords s u) (i : Instr) : u.divErrIp i = divErrorReturn s i := by
  obtain ⟨l, rfl⟩ := h
  rfl

/-- A divide error, after some reads, enters vector 0 (R481, R482). -/
theorem divError_enters {s u : State} {i : Instr} (h : OnlyRecords s u) (hx : exec i s = .next (u.divError i)) :
    Enters s i 0#8 (divErrorReturn s i) := by
  rw [State.divError, h.divErrIp] at hx
  exact ⟨_, hx, enter_entered h 0#8 (divErrorReturn s i)⟩

/-- Settles O9: there is no quotient, and the divide error is taken after the reads of the operands. -/
theorem divideErrorTraps : Obligations.DivideErrorTraps := by
  unfold Obligations.DivideErrorTraps
  intro s e x b
  refine ⟨fun h => ?_, fun h => ?_, fun h => ?_, fun h => ?_, fun h => ?_⟩
  · have hx := exec_divEb s e
    rw [divU_none h] at hx
    exact divError_enters (onlyRecords_fetchDiv8 s e) hx
  · have hx := exec_divEv s x
    rw [dxax_toNat, divU_none h] at hx
    exact divError_enters (onlyRecords_fetchDiv16 s x) hx
  · have hx := exec_idivEb s e
    rw [divS_none h] at hx
    exact divError_enters (onlyRecords_fetchDiv8 s e) hx
  · have hx := exec_idivEv s x
    rw [dxax_toInt, divS_none h] at hx
    exact divError_enters (onlyRecords_fetchDiv16 s x) hx
  · exact divError_enters (onlyRecords_refl s) (if_pos ((aamdBase_eq_zero_iff s b).mpr h))

end Sys2Proof.Machine

namespace Sys2Proof.Machine

/-! ## Decimal adjustments (O10) -/

theorem lowNibble_toNat (b : Byte) : (b &&& 0x0F#8).toNat = b.toNat % 16 := by
  rw [BitVec.toNat_and]
  exact Nat.and_two_pow_sub_one_eq_mod b.toNat 4

/-- What DAA leaves in AL, CF and AF, by the two adjustments (R276). -/
theorem daaRes_eq (s : State) : daaRes (s.reg8 .al) (s.flag .cf) (s.flag .af)
    = (s.reg8 .al + (if lowAdjusts s then 6#8 else 0#8) + (if highAdjusts s then 0x60#8 else 0#8), highAdjusts s,
      lowAdjusts s) := by
  have hlow : (decide (9 < (s.reg8 .al &&& 0x0F#8).toNat) || s.flag .af) = lowAdjusts s := asciiAdjusts_eq s
  have hhigh : (decide (0x99 < (s.reg8 .al).toNat) || s.flag .cf) = highAdjusts s := rfl
  simp only [daaRes, hlow, hhigh]
  cases lowAdjusts s <;> cases highAdjusts s <;> simp

/-- What DAS leaves in AL, CF and AF, by the two adjustments (R277). Where the high digit is not adjusted, CF was 0. -/
theorem dasRes_eq (s : State) : dasRes (s.reg8 .al) (s.flag .cf) (s.flag .af)
    = (s.reg8 .al - (if lowAdjusts s then 6#8 else 0#8) - (if highAdjusts s then 0x60#8 else 0#8),
      highAdjusts s || lowAdjusts s && decide ((s.reg8 .al).toNat < 6), lowAdjusts s) := by
  have hlow : (decide (9 < (s.reg8 .al &&& 0x0F#8).toNat) || s.flag .af) = lowAdjusts s := asciiAdjusts_eq s
  have hhigh : (decide (0x99 < (s.reg8 .al).toNat) || s.flag .cf) = highAdjusts s := rfl
  have hcf : highAdjusts s = false → s.flag .cf = false := fun h => (Bool.or_eq_false_iff.mp (hhigh.trans h)).2
  simp only [dasRes, hlow, hhigh]
  cases h : highAdjusts s with
  | true => cases lowAdjusts s <;> simp
  | false => cases lowAdjusts s <;> simp [hcf h]

/-- Everything the flags of DAA and DAS are (R276, R277). -/
theorem decimalFlags_spec (op : Config.UndefOp) (old : Byte) (r : Byte × Bool × Bool) (fl : Word) :
    SzpOf r.1 (decimalFlags op old r fl) ∧ flagGet (decimalFlags op old r fl) .af = r.2.2
      ∧ flagGet (decimalFlags op old r fl) .cf = r.2.1 := by
  have hkeeps (g : Flag) (hg : g ∉ [Flag.of]) : flagGet (decimalFlags op old r fl) g
      = flagGet (setSZP (flagPut (flagPut fl .af r.2.2) .cf r.2.1) r.1) g := flagGet_drawFlags _ _ _ _ _ g _ _ hg
  refine ⟨(szpOf_setSZP _ r.1).of_eq (hkeeps .sf (by decide)) (hkeeps .zf (by decide)) (hkeeps .pf (by decide)), ?_, ?_⟩
  · rw [hkeeps .af (by decide)]
    simp [flagGet_setSZP]
  · rw [hkeeps .cf (by decide)]
    simp [flagGet_setSZP]

/-- The frame of an instruction that writes one 8-bit register and the flags, after its reads. -/
theorem plain_setReg8 {s u : State} {i : Instr} (h : OnlyRecords s u) (r : Reg8) (v : Byte) (fl : Word) :
    Plain i s (((u.setReg8 r v).setFlags fl).advance i) ∧ SameMem s (((u.setReg8 r v).setFlags fl).advance i)
      ∧ SetByteReg s (((u.setReg8 r v).setFlags fl).advance i) r v := by
  obtain ⟨hram, hrom, hsave, hbanks, hcfg, hext⟩ := h.untouched.stores
  exact ⟨(h.sameControl.setReg8 r v).plain_setFlags i fl, SameStores.sameMem ⟨hram, hrom, hsave, hbanks, hcfg, hext⟩,
    setByteReg_setReg8 h.untouched r v⟩

/-- DAA and DAS: AL is read and written, and the flags are those of the adjustment `r`. -/
theorem decimalAdjust_answers {s : State} {i : Instr} {op : Config.UndefOp} {f : Byte → Bool → Bool → Byte × Bool × Bool}
    {r : Byte × Bool × Bool} (hr : f (s.reg8 .al) (s.flag .cf) (s.flag .af) = r)
    (hx : exec i s = .next ((s.decimalAdjust op f).advance i)) :
    Answers i s fun t => Plain i s t ∧ SameMem s t ∧ KeptFlags arithFlags s.flags t.flags
      ∧ SetByteReg s t .al r.1 ∧ SzpOf r.1 t.flags ∧ flagGet t.flags .af = r.2.2 ∧ flagGet t.flags .cf = r.2.1 := by
  simp only [State.decimalAdjust, hr] at hx
  obtain ⟨hplain, hmem, hset⟩ := plain_setReg8 (i := i) (onlyRecords_note8 s .al) .al r.1
    (decimalFlags op (s.reg8 .al) r s.flags)
  exact ⟨_, hx, hplain, hmem, decimalFlags_kept op _ _ _, hset, decimalFlags_spec op _ _ _⟩

theorem daa_answers (s : State) : Answers .daa s fun t => Plain .daa s t ∧ SameMem s t ∧ KeptFlags arithFlags s.flags t.flags
    ∧ ∃ v : Byte, SetByteReg s t .al v ∧ SzpOf v t.flags
      ∧ v.toNat = ((s.reg8 .al).toNat + (if lowAdjusts s then 6 else 0) + (if highAdjusts s then 0x60 else 0)) % 256
      ∧ flagGet t.flags .af = lowAdjusts s ∧ flagGet t.flags .cf = highAdjusts s := by
  obtain ⟨t, hx, hplain, hmem, hkept, hset, hszp, hflags⟩ := decimalAdjust_answers (i := .daa) (daaRes_eq s) rfl
  refine ⟨t, hx, hplain, hmem, hkept, _, hset, hszp, ?_, hflags⟩
  rw [BitVec.toNat_add, BitVec.toNat_add, apply_ite BitVec.toNat, apply_ite BitVec.toNat]
  exact Nat.mod_add_mod _ _ _

theorem das_answers (s : State) : Answers .das s fun t => Plain .das s t ∧ SameMem s t ∧ KeptFlags arithFlags s.flags t.flags
    ∧ ∃ v : Byte, SetByteReg s t .al v ∧ SzpOf v t.flags
      ∧ (v.toNat : Int)
        = (((s.reg8 .al).toNat : Int) - (if lowAdjusts s then 6 else 0) - (if highAdjusts s then 0x60 else 0)) % 256
      ∧ flagGet t.flags .af = lowAdjusts s
      ∧ flagGet t.flags .cf = (highAdjusts s || lowAdjusts s && decide ((s.reg8 .al).toNat < 6)) := by
  obtain ⟨t, hx, hplain, hmem, hkept, hset, hszp, hflags⟩ := decimalAdjust_answers (i := .das) (dasRes_eq s) rfl
  refine ⟨t, hx, hplain, hmem, hkept, _, hset, hszp, ?_, hflags⟩
  have hlt := (s.reg8 .al).isLt
  cases lowAdjusts s <;> cases highAdjusts s <;> simp [BitVec.toNat_sub] <;> omega

/-! ## Adjustments of AX, CBW and CWD (O10) -/

/-- Everything the flags of AAA and AAS are (R278, R279). -/
theorem asciiFlags_spec (op : Config.UndefOp) (ax : Word) (adj : Bool) (fl : Word) :
    flagGet (asciiFlags op ax adj fl) .af = adj ∧ flagGet (asciiFlags op ax adj fl) .cf = adj := by
  have hkeeps (g : Flag) (hg : g ∉ [Flag.of, .sf, .zf, .pf]) : flagGet (asciiFlags op ax adj fl) g
      = flagGet (flagPut (flagPut fl .af adj) .cf adj) g := flagGet_drawFlags _ _ _ _ _ g _ _ hg
  rw [hkeeps .af (by decide), hkeeps .cf (by decide)]
  simp

/-- The word of two bytes as a number. -/
theorem wordOfBytes_toNat (a b : Byte) : (a ++ b : Word).toNat = a.toNat * 256 + b.toNat := append_toNat a b

/-- A write of AL is a write of AX that keeps AH. -/
theorem setReg8_al_reg16 {u : State} {v : Word} (h : hiByte v = hiByte (u.reg16 .ax)) :
    (u.setReg8 .al (loByte v)).reg16 .ax = v := by
  have hput : (u.setReg8 .al (loByte v)).reg16 .ax = hiByte (u.reg16 .ax) ++ loByte v := setReg8_reg16 u .al .ax (loByte v)
  rw [hput, ← h, hi_append_lo]

/-- AAA and AAS: AX is written with `v`, or AL alone where it is not adjusted, and AH is that of `v` then. -/
theorem asciiAdjust_answers {s : State} {i : Instr} {op : Config.UndefOp} {f : Bool → Word → Bool → Word} {v : Word}
    (hv : f s.cfg.aaaCarryIntoAh (s.reg16 .ax) (s.flag .af) = v) (hah : lowAdjusts s = false → hiByte v = hiByte (s.reg16 .ax))
    (hx : exec i s = .next ((s.asciiAdjust op f).advance i)) :
    Answers i s fun t => Plain i s t ∧ SameMem s t ∧ KeptFlags arithFlags s.flags t.flags ∧ SameRegsBut [.ax] s t
      ∧ t.reg16 .ax = v ∧ flagGet t.flags .af = lowAdjusts s ∧ flagGet t.flags .cf = lowAdjusts s := by
  simp only [State.asciiAdjust, asciiAdjusts_eq, hv] at hx
  have hkept := asciiFlags_kept op (s.reg16 .ax) (lowAdjusts s) s.flags
  have hflags := asciiFlags_spec op (s.reg16 .ax) (lowAdjusts s) s.flags
  cases hadj : lowAdjusts s with
  | true =>
    rw [hadj] at hx hkept hflags
    obtain ⟨hplain, hmem, hvalue, hregs⟩ := plain_setReg (i := i) (onlyRecords_note16 s .ax) .ax v
      (asciiFlags op (s.reg16 .ax) true s.flags)
    exact ⟨_, hx, hplain, hmem, hkept, hregs, hvalue, hflags⟩
  | false =>
    rw [hadj] at hx hkept hflags
    obtain ⟨hplain, hmem, -, hregs⟩ := plain_setReg8 (i := i) (onlyRecords_note8 s .al) .al (loByte v)
      (asciiFlags op (s.reg16 .ax) false s.flags)
    exact ⟨_, hx, hplain, hmem, hkept, hregs, setReg8_al_reg16 (u := s.note8 .al) (hah hadj), hflags⟩

/-- The mask of AAA and AAS clears the high digit of AL and keeps AH (R278, R279). -/
theorem asciiMask_bytes (x : Word) :
    (loByte (x &&& 0xFF0F#16)).toNat = x.toNat % 16 ∧ hiByte (x &&& 0xFF0F#16) = hiByte x := by
  have hlo : loByte (x &&& 0xFF0F#16) = loByte x &&& 0x0F#8 := BitVec.extractLsb'_and
  have hhi : hiByte (x &&& 0xFF0F#16) = hiByte x &&& 0xFF#8 := BitVec.extractLsb'_and
  refine ⟨?_, hhi.trans BitVec.and_allOnes⟩
  rw [hlo, lowNibble_toNat, loByte_toNat, Nat.mod_mod_of_dvd _ (by decide)]

/-- AX before the mask of AAA (R278). -/
def aaaSum (s : State) : Word :=
  if lowAdjusts s then
    if s.cfg.aaaCarryIntoAh then s.reg16 .ax + 0x0106#16 else (s.reg8 .ah + 1#8) ++ (s.reg8 .al + 6#8)
  else s.reg16 .ax

theorem aaaRes_eq (s : State) : aaaRes s.cfg.aaaCarryIntoAh (s.reg16 .ax) (s.flag .af) = aaaSum s &&& 0xFF0F#16 := by
  rw [aaaSum, ← asciiAdjusts_eq]
  rfl

/-- AX before the mask of AAS (R279). -/
def aasDifference (s : State) : Word :=
  if lowAdjusts s then
    if s.cfg.aaaCarryIntoAh then s.reg16 .ax - 6#16 - 0x0100#16 else (s.reg8 .ah - 1#8) ++ (s.reg8 .al - 6#8)
  else s.reg16 .ax

theorem aasRes_eq (s : State) : aasRes s.cfg.aaaCarryIntoAh (s.reg16 .ax) (s.flag .af) = aasDifference s &&& 0xFF0F#16 := by
  rw [aasDifference, ← asciiAdjusts_eq]
  rfl

theorem reg8_al_toNat (s : State) : (s.reg8 .al).toNat = (s.reg16 .ax).toNat % 256 := loByte_toNat _

theorem reg8_ah_toNat (s : State) : (s.reg8 .ah).toNat = (s.reg16 .ax).toNat / 256 := hiByte_toNat _

theorem aaaSum_low (s : State) :
    (aaaSum s).toNat % 16 = ((s.reg8 .al).toNat + if lowAdjusts s then 6 else 0) % 16 := by
  rw [aaaSum, reg8_al_toNat]
  cases lowAdjusts s with
  | false => simp
  | true => cases s.cfg.aaaCarryIntoAh <;> simp [wordOfBytes_toNat, reg8_al_toNat] <;> omega

theorem aaaSum_high (s : State) : (aaaSum s).toNat / 256
    = (if !lowAdjusts s then (s.reg8 .ah).toNat
       else if s.cfg.aaaCarryIntoAh then ((s.reg16 .ax).toNat + 0x0106) / 256 % 256
       else ((s.reg8 .ah).toNat + 1) % 256) := by
  rw [aaaSum]
  cases lowAdjusts s with
  | false => simp [reg8_ah_toNat]
  | true => cases s.cfg.aaaCarryIntoAh <;> simp [wordOfBytes_toNat] <;> omega

theorem aaa_answers (s : State) : Answers .aaa s fun t => Plain .aaa s t ∧ SameMem s t
    ∧ KeptFlags arithFlags s.flags t.flags ∧ SameRegsBut [.ax] s t
    ∧ (t.reg8 .al).toNat = ((s.reg8 .al).toNat + if lowAdjusts s then 6 else 0) % 16
    ∧ (t.reg8 .ah).toNat
      = (if !lowAdjusts s then (s.reg8 .ah).toNat
         else if s.cfg.aaaCarryIntoAh then ((s.reg16 .ax).toNat + 0x0106) / 256 % 256
         else ((s.reg8 .ah).toNat + 1) % 256)
    ∧ flagGet t.flags .af = lowAdjusts s ∧ flagGet t.flags .cf = lowAdjusts s := by
  obtain ⟨hlow, hhigh⟩ := asciiMask_bytes (aaaSum s)
  have hah (h : lowAdjusts s = false) : hiByte (aaaSum s &&& 0xFF0F#16) = hiByte (s.reg16 .ax) := by
    rw [hhigh, aaaSum, h, if_neg Bool.false_ne_true]
  obtain ⟨t, hx, hplain, hmem, hkept, hregs, hax, hflags⟩ := asciiAdjust_answers (i := .aaa) (aaaRes_eq s) hah rfl
  refine ⟨t, hx, hplain, hmem, hkept, hregs, ?_, ?_, hflags⟩
  · rw [reg8_al, hax, hlow, aaaSum_low]
  · rw [reg8_ah, hax, hhigh, hiByte_toNat, aaaSum_high]

theorem aasDifference_low (s : State) :
    ((aasDifference s).toNat % 16 : Int) = (((s.reg8 .al).toNat : Int) - if lowAdjusts s then 6 else 0) % 16 := by
  have hlt := (s.reg16 .ax).isLt
  rw [aasDifference, reg8_al_toNat]
  cases lowAdjusts s with
  | false => simp
  | true => cases s.cfg.aaaCarryIntoAh <;> simp [wordOfBytes_toNat, reg8_al_toNat, BitVec.toNat_sub] <;> omega

theorem aasDifference_high (s : State) : ((aasDifference s).toNat / 256 : Int)
    = (if !lowAdjusts s then ((s.reg8 .ah).toNat : Int)
       else if s.cfg.aaaCarryIntoAh then (((s.reg16 .ax).toNat : Int) - 6) % 65536 / 256 - 1
       else (s.reg8 .ah).toNat - 1) % 256 := by
  have hlt := (s.reg16 .ax).isLt
  rw [aasDifference, reg8_ah_toNat]
  cases lowAdjusts s with
  | false => simp; omega
  | true => cases s.cfg.aaaCarryIntoAh <;> simp [wordOfBytes_toNat, reg8_ah_toNat, reg8_al_toNat, BitVec.toNat_sub] <;> omega

theorem aas_answers (s : State) : Answers .aas s fun t => Plain .aas s t ∧ SameMem s t
    ∧ KeptFlags arithFlags s.flags t.flags ∧ SameRegsBut [.ax] s t
    ∧ ((t.reg8 .al).toNat : Int) = (((s.reg8 .al).toNat : Int) - if lowAdjusts s then 6 else 0) % 16
    ∧ ((t.reg8 .ah).toNat : Int)
      = (if !lowAdjusts s then ((s.reg8 .ah).toNat : Int)
         else if s.cfg.aaaCarryIntoAh then (((s.reg16 .ax).toNat : Int) - 6) % 65536 / 256 - 1
         else (s.reg8 .ah).toNat - 1) % 256
    ∧ flagGet t.flags .af = lowAdjusts s ∧ flagGet t.flags .cf = lowAdjusts s := by
  obtain ⟨hlow, hhigh⟩ := asciiMask_bytes (aasDifference s)
  have hah (h : lowAdjusts s = false) : hiByte (aasDifference s &&& 0xFF0F#16) = hiByte (s.reg16 .ax) := by
    rw [hhigh, aasDifference, h, if_neg Bool.false_ne_true]
  obtain ⟨t, hx, hplain, hmem, hkept, hregs, hax, hflags⟩ := asciiAdjust_answers (i := .aas) (aasRes_eq s) hah rfl
  refine ⟨t, hx, hplain, hmem, hkept, hregs, ?_, ?_, hflags⟩
  · rw [reg8_al, hax, hlow, ← aasDifference_low]
    rfl
  · rw [reg8_ah, hax, hhigh, hiByte_toNat, ← aasDifference_high]
    rfl

theorem aad_answers (s : State) (b : Byte) : Answers (.aadIb b) s fun t => Plain (.aadIb b) s t ∧ SameMem s t
    ∧ SameRegsBut [.ax] s t
    ∧ (t.reg8 .al).toNat = ((s.reg8 .al).toNat + (s.reg8 .ah).toNat * aamBase s b) % 256 ∧ (t.reg8 .ah).toNat = 0
    ∧ SzpOf (t.reg8 .al) t.flags ∧ KeptFlags arithFlags s.flags t.flags := by
  obtain ⟨hszp, hkept⟩ := aamdFlags_spec .aad (s.reg16 .ax) (s.aamdBase b) (aadRes (s.reg16 .ax) (s.aamdBase b)) s.flags
  obtain ⟨hplain, hmem, hvalue, hregs⟩ := plain_setReg (i := .aadIb b) (onlyRecords_note16 s .ax) .ax
    (0x00#8 ++ aadRes (s.reg16 .ax) (s.aamdBase b))
    (aamdFlags .aad (s.reg16 .ax) (s.aamdBase b) (aadRes (s.reg16 .ax) (s.aamdBase b)) s.flags)
  refine ⟨_, rfl, hplain, hmem, hregs, ?_, ?_, ?_, hkept⟩
  · rw [reg8_al, hvalue, loByte_append, aadRes, BitVec.toNat_ofNat, aamdBase_toNat]
    rfl
  · rw [reg8_ah, hvalue, hiByte_append, BitVec.toNat_zero]
  · rwa [reg8_al, hvalue, loByte_append]

theorem cbw_answers (s : State) : Answers .cbw s fun t => Plain .cbw s t ∧ t.flags = s.flags ∧ SameMem s t
    ∧ SameRegsBut [.ax] s t ∧ (t.reg16 .ax).toInt = (s.reg8 .al).toInt := by
  obtain ⟨t, hx, hplain, hflags, ⟨hvalue, hregs⟩, hmem⟩ := moves16 (i := .cbw) (e := .reg .ax) (v := sextByte (s.reg8 .al))
    (onlyRecords_note8 s .al) rfl
  exact ⟨t, hx, hplain, hflags, hmem, hregs, by rw [hvalue, sextByte_toInt]⟩

theorem cwd_answers (s : State) : Answers .cwd s fun t => Plain .cwd s t ∧ t.flags = s.flags ∧ SameMem s t
    ∧ SetWordReg s t .dx (if (s.reg16 .ax).toInt < 0 then 0xFFFF#16 else 0x0000#16) := by
  obtain ⟨t, hx, hplain, hflags, hset, hmem⟩ := moves16 (i := .cwd) (e := .reg .dx)
    (v := if (s.reg16 .ax).msb then 0xFFFF#16 else 0x0000#16) (onlyRecords_note16 s .ax) rfl
  rw [BitVec.msb_eq_toInt] at hset
  exact ⟨t, hx, hplain, hflags, hmem, by simpa using hset⟩

/-- Settles O10: each instruction reads AL or AX and writes AL, AX or DX with its flags. -/
theorem adjusts : Obligations.Adjusts := by
  unfold Obligations.Adjusts
  exact ⟨fun s => ⟨daa_answers s, das_answers s, aaa_answers s, aas_answers s⟩,
    fun s b => ⟨aad_answers s b, cbw_answers s, cwd_answers s⟩⟩

end Sys2Proof.Machine

namespace Sys2Proof.Machine

/-! ## AND, OR, XOR and TEST (O4, O5) -/

section LogicForms

variable {s : State} {i : Instr}

/-- AND of width 8 (R321). -/
theorem and8_logic {e : Rm8} {x : Src8} (hx : exec i s = .next ((s.alu8 .and e x).advance i)) :
    Logic8 s i e (s.rm8 e &&& s.src8 x) :=
  alu8_logic s i .and .and e x (by decide) (fun _ _ => rfl) hx

/-- AND of width 16 (R321). -/
theorem and16_logic {e : Rm16} {x : Src16} (hx : exec i s = .next ((s.alu16 .and e x).advance i)) :
    Logic16 s i e (s.rm16 e &&& s.src16 x) :=
  alu16_logic s i .and .and e x (by decide) (fun _ _ => rfl) hx

/-- OR of width 8 (R322). -/
theorem or8_logic {e : Rm8} {x : Src8} (hx : exec i s = .next ((s.alu8 .or e x).advance i)) :
    Logic8 s i e (s.rm8 e ||| s.src8 x) :=
  alu8_logic s i .or .or e x (by decide) (fun _ _ => rfl) hx

/-- OR of width 16 (R322). -/
theorem or16_logic {e : Rm16} {x : Src16} (hx : exec i s = .next ((s.alu16 .or e x).advance i)) :
    Logic16 s i e (s.rm16 e ||| s.src16 x) :=
  alu16_logic s i .or .or e x (by decide) (fun _ _ => rfl) hx

/-- XOR of width 8 (R323). -/
theorem xor8_logic {e : Rm8} {x : Src8} (hx : exec i s = .next ((s.alu8 .xor e x).advance i)) :
    Logic8 s i e (s.rm8 e ^^^ s.src8 x) :=
  alu8_logic s i .xor .xor e x (by decide) (fun _ _ => rfl) hx

/-- XOR of width 16 (R323). -/
theorem xor16_logic {e : Rm16} {x : Src16} (hx : exec i s = .next ((s.alu16 .xor e x).advance i)) :
    Logic16 s i e (s.rm16 e ^^^ s.src16 x) :=
  alu16_logic s i .xor .xor e x (by decide) (fun _ _ => rfl) hx

end LogicForms

/-- Settles O4: each form is the bitwise operation on its destination and its source operand. -/
theorem logicForms : Obligations.LogicForms := by
  unfold Obligations.LogicForms
  intro s e g x r b v
  exact ⟨and8_logic (x := .rm (.reg g)) rfl, and16_logic (x := .rm (.reg r)) rfl,
    and8_logic (x := .rm e) rfl, and16_logic (x := .rm x) rfl,
    and8_logic (x := .imm b) rfl, and16_logic (x := .imm v) rfl,
    and8_logic (x := .imm b) rfl, and16_logic (x := .imm v) rfl,
    and8_logic (x := .imm b) rfl, and16_logic (x := .imm (sextByte b)) rfl,
    or8_logic (x := .rm (.reg g)) rfl, or16_logic (x := .rm (.reg r)) rfl,
    or8_logic (x := .rm e) rfl, or16_logic (x := .rm x) rfl,
    or8_logic (x := .imm b) rfl, or16_logic (x := .imm v) rfl,
    or8_logic (x := .imm b) rfl, or16_logic (x := .imm v) rfl,
    or8_logic (x := .imm b) rfl, or16_logic (x := .imm (sextByte b)) rfl,
    xor8_logic (x := .rm (.reg g)) rfl, xor16_logic (x := .rm (.reg r)) rfl,
    xor8_logic (x := .rm e) rfl, xor16_logic (x := .rm x) rfl,
    xor8_logic (x := .imm b) rfl, xor16_logic (x := .imm v) rfl,
    xor8_logic (x := .imm b) rfl, xor16_logic (x := .imm v) rfl,
    xor8_logic (x := .imm b) rfl, xor16_logic (x := .imm (sextByte b)) rfl⟩

/-- Settles O5: each form tests its two operands. -/
theorem testForms : Obligations.TestForms := by
  unfold Obligations.TestForms
  intro s e g x r b v
  exact ⟨test8_tests s _ e (.rm (.reg g)) rfl, test16_tests s _ x (.rm (.reg r)) rfl,
    test8_tests s _ (.reg .al) (.imm b) rfl, test16_tests s _ (.reg .ax) (.imm v) rfl,
    test8_tests s _ e (.imm b) rfl, test16_tests s _ x (.imm v) rfl⟩

end Sys2Proof.Machine

namespace Sys2Proof.Machine

/-! ## Rotations by one place and by one place more -/

/-- A rotation to the right, bit by bit. -/
theorem getLsbD_rotateRight_eq_mod {w : Nat} (x : BitVec w) (n : Nat) {k : Nat} (hk : k < w) :
    (x.rotateRight n).getLsbD k = x.getLsbD ((k + n) % w) := by
  have hn := Nat.mod_lt n (Nat.zero_lt_of_lt hk)
  rw [BitVec.getLsbD_rotateRight]
  by_cases h : k < w - n % w
  · have hmod : (k + n) % w = n % w + k := by rw [← Nat.add_mod_mod, Nat.mod_eq_of_lt (by omega), Nat.add_comm]
    simp [h, hmod]
  · have hmod : (k + n) % w = k - (w - n % w) := by
      rw [← Nat.add_mod_mod, Nat.mod_eq_sub_mod (by omega), Nat.mod_eq_of_lt (by omega)]
      omega
    simp [h, hk, hmod]

/-- A rotation to the left, bit by bit from the top. -/
theorem getMsbD_rotateLeft_eq_mod {w : Nat} (x : BitVec w) (n : Nat) {k : Nat} (hk : k < w) :
    (x.rotateLeft n).getMsbD k = x.getMsbD ((k + n) % w) := by
  rw [BitVec.getMsbD_rotateLeft, Nat.add_comm]
  simp [hk]

theorem rotateRight_zero {w : Nat} (x : BitVec w) : x.rotateRight 0 = x := by
  rw [BitVec.rotateRight_def, Nat.zero_mod, BitVec.ushiftRight_zero, Nat.sub_zero,
    BitVec.shiftLeft_eq_zero (Nat.le_refl w), BitVec.or_zero]

theorem rotateLeft_zero {w : Nat} (x : BitVec w) : x.rotateLeft 0 = x := by
  rw [BitVec.rotateLeft_def, Nat.zero_mod, BitVec.shiftLeft_zero, Nat.sub_zero,
    BitVec.ushiftRight_eq_zero (Nat.le_refl w), BitVec.or_zero]

theorem rotateRight_succ {w : Nat} (x : BitVec w) (n : Nat) : x.rotateRight (n + 1) = (x.rotateRight n).rotateRight 1 :=
  BitVec.eq_of_getLsbD_eq fun k hk => by
    rw [getLsbD_rotateRight_eq_mod x _ hk, getLsbD_rotateRight_eq_mod _ 1 hk,
      getLsbD_rotateRight_eq_mod x n (Nat.mod_lt _ (Nat.zero_lt_of_lt hk)), Nat.mod_add_mod, Nat.add_right_comm]
    rfl

theorem rotateLeft_succ {w : Nat} (x : BitVec w) (n : Nat) : x.rotateLeft (n + 1) = (x.rotateLeft n).rotateLeft 1 :=
  BitVec.eq_of_getMsbD_eq fun k hk => by
    rw [getMsbD_rotateLeft_eq_mod x _ hk, getMsbD_rotateLeft_eq_mod _ 1 hk,
      getMsbD_rotateLeft_eq_mod x n (Nat.mod_lt _ (Nat.zero_lt_of_lt hk)), Nat.mod_add_mod, Nat.add_right_comm]
    rfl

theorem getLsbD_rotateRight_one {w : Nat} (x : BitVec w) {k : Nat} (hk : k < w) :
    (x.rotateRight 1).getLsbD k = if k = w - 1 then x.getLsbD 0 else x.getLsbD (k + 1) := by
  rw [getLsbD_rotateRight_eq_mod x 1 hk]
  split
  next h => rw [h, Nat.sub_add_cancel (Nat.one_le_of_lt hk), Nat.mod_self]
  next h => rw [Nat.mod_eq_of_lt (by omega)]

theorem getLsbD_rotateLeft_one {w : Nat} (hw : 1 < w) (x : BitVec w) {k : Nat} (hk : k < w) :
    (x.rotateLeft 1).getLsbD k = if k = 0 then x.getLsbD (w - 1) else x.getLsbD (k - 1) := by
  rw [BitVec.getLsbD_rotateLeft, Nat.mod_eq_of_lt hw]
  cases k <;> simp [hk, -BitVec.getLsbD_eq_getElem]

/-! ## A single-bit step is a shift or rotation by one -/

theorem getLsbD_bitVal (w : Nat) (b : Bool) (k : Nat) : (bitVal w b).getLsbD k = (decide (0 < w) && decide (k = 0) && b) := by
  cases b <;> simp [bitVal]

theorem getLsbD_shl_or_bit {w : Nat} (x : BitVec w) (b : Bool) {k : Nat} (hk : k < w) :
    ((x <<< 1) ||| bitVal w b).getLsbD k = if k = 0 then b else x.getLsbD (k - 1) := by
  rw [BitVec.getLsbD_or, BitVec.getLsbD_shiftLeft, getLsbD_bitVal]
  cases k <;> simp [hk, Nat.zero_lt_of_lt hk, -BitVec.getLsbD_eq_getElem]

theorem getLsbD_shr_or_bit {w : Nat} (x : BitVec w) (b : Bool) {k : Nat} (hk : k < w) :
    ((x >>> 1) ||| (bitVal w b <<< (w - 1))).getLsbD k = if k = w - 1 then b else x.getLsbD (k + 1) := by
  rw [BitVec.getLsbD_or, BitVec.getLsbD_ushiftRight, BitVec.getLsbD_shiftLeft, getLsbD_bitVal, Nat.add_comm]
  rcases Nat.lt_or_eq_of_le (Nat.le_sub_one_of_lt hk) with h | rfl
  · simp [h, h.ne]
  · simp [hk, Nat.zero_lt_of_lt hk, BitVec.getLsbD_of_ge x (w - 1 + 1) (by omega)]

theorem rolStep_eq_rotateLeft {w : Nat} (hw : 1 < w) (x : BitVec w) (cf : Bool) :
    (shiftStep .rol x cf).1 = x.rotateLeft 1 :=
  BitVec.eq_of_getLsbD_eq fun k hk => by
    rw [shiftStep, getLsbD_shl_or_bit x _ hk, getLsbD_rotateLeft_one hw x hk, BitVec.msb_eq_getLsbD_last]

theorem rorStep_eq_rotateRight {w : Nat} (x : BitVec w) (cf : Bool) :
    (shiftStep .ror x cf).1 = x.rotateRight 1 :=
  BitVec.eq_of_getLsbD_eq fun k hk => by
    rw [shiftStep, getLsbD_shr_or_bit x _ hk, getLsbD_rotateRight_one x hk]

/-- A step of RCL rotates CF and the operand as one value (R329). -/
theorem rclStep_eq_rotateLeft {w : Nat} (hw : 0 < w) (x : BitVec w) (cf : Bool) :
    BitVec.cons (shiftStep .rcl x cf).2 (shiftStep .rcl x cf).1 = (BitVec.cons cf x).rotateLeft 1 :=
  BitVec.eq_of_getLsbD_eq fun k hk => by
    rw [shiftStep, getLsbD_rotateLeft_one (by omega) _ hk, BitVec.getLsbD_cons, BitVec.getLsbD_cons, BitVec.getLsbD_cons]
    rcases Nat.lt_or_eq_of_le (Nat.le_of_lt_succ hk) with h | rfl
    · rw [getLsbD_shl_or_bit x _ h]
      simp [h.ne, show k - 1 ≠ w by omega]
    · simp [BitVec.msb_eq_getLsbD_last, hw.ne', show k - 1 ≠ k by omega]

/-- A step of RCR rotates CF and the operand as one value (R330). -/
theorem rcrStep_eq_rotateRight {w : Nat} (hw : 0 < w) (x : BitVec w) (cf : Bool) :
    BitVec.cons (shiftStep .rcr x cf).2 (shiftStep .rcr x cf).1 = (BitVec.cons cf x).rotateRight 1 :=
  BitVec.eq_of_getLsbD_eq fun k hk => by
    rw [shiftStep, getLsbD_rotateRight_one _ hk, BitVec.getLsbD_cons, BitVec.getLsbD_cons, BitVec.getLsbD_cons]
    rcases Nat.lt_or_eq_of_le (Nat.le_of_lt_succ hk) with h | rfl
    · rw [getLsbD_shr_or_bit x _ h]
      simp [h.ne, show k + 1 = w ↔ k = w - 1 by omega]
    · simp [hw.ne]

theorem sarStep_eq_sshiftRight {w : Nat} (x : BitVec w) (cf : Bool) :
    (shiftStep .sar x cf).1 = x.sshiftRight 1 :=
  BitVec.eq_of_getLsbD_eq fun k hk => by
    rw [shiftStep, getLsbD_shr_or_bit x _ hk, BitVec.getLsbD_sshiftRight, Nat.add_comm 1 k]
    by_cases h : k = w - 1
    · rw [if_pos h, if_neg (by omega)]
      simp [hk]
    · rw [if_neg h, if_pos (by omega)]
      simp [hk]

/-! ## The closed form of `n` single-bit steps (R326) -/

/-- The last of `n + 1` steps. -/
theorem shiftSteps_succ {w : Nat} (op : ShiftOp) (n : Nat) (p : BitVec w × Bool) :
    shiftSteps op (n + 1) p = shiftStep op (shiftSteps op n p).1 (shiftSteps op n p).2 := by
  induction n generalizing p with
  | zero => rfl
  | succ n ih => exact ih _

/-- A value that every step takes to the next is what the steps reach. -/
theorem shiftSteps_value {w : Nat} {op : ShiftOp} {x : BitVec w} {cf : Bool} {f : Nat → BitVec w} (h0 : f 0 = x)
    (hsucc : ∀ m c, (shiftStep op (f m) c).1 = f (m + 1)) (n : Nat) : (shiftSteps op n (x, cf)).1 = f n := by
  induction n with
  | zero => exact h0.symm
  | succ n ih => rw [shiftSteps_succ, ih, hsucc]

/-- As `shiftSteps_value`, for the value of CF and the operand together. -/
theorem shiftSteps_withCarry {w : Nat} {op : ShiftOp} {x : BitVec w} {cf : Bool} {f : Nat → BitVec (w + 1)}
    (h0 : f 0 = BitVec.cons cf x)
    (hsucc : ∀ m y c, BitVec.cons c y = f m → BitVec.cons (shiftStep op y c).2 (shiftStep op y c).1 = f (m + 1)) (n : Nat) :
    BitVec.cons (shiftSteps op n (x, cf)).2 (shiftSteps op n (x, cf)).1 = f n := by
  induction n with
  | zero => exact h0.symm
  | succ n ih =>
    rw [shiftSteps_succ]
    exact hsucc n _ _ ih

section ClosedForms

variable {w : Nat} (x : BitVec w) (cf : Bool) (n : Nat)

theorem rolSteps_eq (hw : 1 < w) : (shiftSteps .rol n (x, cf)).1 = x.rotateLeft n :=
  shiftSteps_value (rotateLeft_zero _) (fun m c => (rolStep_eq_rotateLeft hw _ c).trans (rotateLeft_succ x m).symm) n

theorem rorSteps_eq : (shiftSteps .ror n (x, cf)).1 = x.rotateRight n :=
  shiftSteps_value (rotateRight_zero _) (fun m c => (rorStep_eq_rotateRight _ c).trans (rotateRight_succ x m).symm) n

theorem rclSteps_eq (hw : 0 < w) :
    BitVec.cons (shiftSteps .rcl n (x, cf)).2 (shiftSteps .rcl n (x, cf)).1 = (BitVec.cons cf x).rotateLeft n :=
  shiftSteps_withCarry (rotateLeft_zero _)
    (fun m y c h => by rw [rclStep_eq_rotateLeft hw, h, ← rotateLeft_succ]) n

theorem rcrSteps_eq (hw : 0 < w) :
    BitVec.cons (shiftSteps .rcr n (x, cf)).2 (shiftSteps .rcr n (x, cf)).1 = (BitVec.cons cf x).rotateRight n :=
  shiftSteps_withCarry (rotateRight_zero _)
    (fun m y c h => by rw [rcrStep_eq_rotateRight hw, h, ← rotateRight_succ]) n

theorem shlSteps_eq : (shiftSteps .shl n (x, cf)).1 = x <<< n :=
  shiftSteps_value (op := .shl) (BitVec.shiftLeft_zero x) (fun m _ => (BitVec.shiftLeft_add x m 1).symm) n

theorem shrSteps_eq : (shiftSteps .shr n (x, cf)).1 = x >>> n :=
  shiftSteps_value (op := .shr) (BitVec.ushiftRight_zero x) (fun m _ => (BitVec.shiftRight_add x m 1).symm) n

theorem sarSteps_eq : (shiftSteps .sar n (x, cf)).1 = x.sshiftRight n :=
  shiftSteps_value BitVec.sshiftRight_zero (fun m c => by rw [sarStep_eq_sshiftRight, BitVec.sshiftRight_add]) n

end ClosedForms

/-- The result and CF of `n + 1` steps: the value is the closed form, and CF is the bit that the last step moves out. -/
theorem shiftedTo_shiftSteps {w : Nat} (hw : 1 < w) (op : ShiftOp) (x : BitVec w) (cf : Bool) (n : Nat) :
    ShiftedTo op x cf (n + 1) (shiftSteps op (n + 1) (x, cf)).1 (shiftSteps op (n + 1) (x, cf)).2 := by
  cases op with
  | rol =>
    refine ⟨rolSteps_eq x cf (n + 1) hw, ?_⟩
    rw [shiftSteps_succ, shiftStep, getLsbD_shl_or_bit _ _ (by omega), if_pos rfl]
  | ror =>
    refine ⟨rorSteps_eq x cf (n + 1), ?_⟩
    rw [shiftSteps_succ, shiftStep, getLsbD_shr_or_bit _ _ (by omega), if_pos rfl]
  | rcl => exact rclSteps_eq x cf (n + 1) (by omega)
  | rcr => exact rcrSteps_eq x cf (n + 1) (by omega)
  | shl =>
    refine ⟨shlSteps_eq x cf (n + 1), ?_⟩
    rw [shiftSteps_succ, shlSteps_eq, shiftStep, BitVec.msb_eq_getLsbD_last, BitVec.getLsbD_shiftLeft]
    by_cases h : n + 1 ≤ w
    · simp [h, show ¬w - 1 < n by omega, show w - 1 - n = w - (n + 1) by omega, show w - 1 < w by omega]
    · simp [h]; omega
  | shr =>
    refine ⟨shrSteps_eq x cf (n + 1), ?_⟩
    rw [shiftSteps_succ, shrSteps_eq, shiftStep, BitVec.getLsbD_ushiftRight]
    simp
  | sar =>
    refine ⟨sarSteps_eq x cf (n + 1), ?_⟩
    rw [shiftSteps_succ, sarSteps_eq, shiftStep, BitVec.getLsbD_sshiftRight, ← BitVec.msb_eq_getLsbD_last]
    simp [show w ≠ 0 by omega]

/-! ## The flags of a shift (R327-R333) -/

section ShiftFlags

variable {w : Nat} (op : ShiftOp) (x : BitVec w) (n : Nat) (fl : Word)

/-- CF after a shift. -/
def shiftCarry : Bool := (shiftSteps op n (x, flagGet fl .cf)).2

/-- FLAGS with CF and OF of a shift, before SF, ZF, PF and AF. -/
def shiftCarryFlags : Word :=
  if n = 1 then flagPut (flagPut fl .cf (shiftCarry op x n fl)) .of (shiftOf op x (shiftRes op x n fl) (shiftCarry op x n fl))
  else drawFlags (shiftUndef op) w x.toNat n fl [.of] (flagPut fl .cf (shiftCarry op x n fl))

theorem flagGet_cf_shiftCarryFlags : flagGet (shiftCarryFlags op x n fl) .cf = shiftCarry op x n fl := by
  rw [shiftCarryFlags]
  split
  · simp
  · rw [flagGet_drawFlags _ _ _ _ _ _ _ _ (by decide)]
    simp

theorem flagGet_of_shiftCarryFlags_one :
    flagGet (shiftCarryFlags op x 1 fl) .of = shiftOf op x (shiftRes op x 1 fl) (shiftCarry op x 1 fl) := by
  simp [shiftCarryFlags]

theorem shiftCarryFlags_kept : KeptFlags [.cf, .of] fl (shiftCarryFlags op x n fl) := by
  have hcf : KeptFlags [.cf, .of] fl (flagPut fl .cf (shiftCarry op x n fl)) := (KeptFlags.rfl' _ _).put (by decide) _
  rw [shiftCarryFlags]
  split
  · exact hcf.put (by decide) _
  · exact hcf.draw _ _ _ _ _ [.of] (by decide)

/-- The flags of a shift: CF and OF first, then for SHL, SHR and SAR the flags of the result and AF. -/
theorem shiftFlags_eq : shiftFlags op x n fl =
    if shiftSetsSZP op then
      drawFlags (shiftUndef op) w x.toNat n fl [.af] (setSZP (shiftCarryFlags op x n fl) (shiftRes op x n fl))
    else shiftCarryFlags op x n fl := rfl

theorem flagGet_shiftFlags {g : Flag} (hg : g = .cf ∨ g = .of) :
    flagGet (shiftFlags op x n fl) g = flagGet (shiftCarryFlags op x n fl) g := by
  rw [shiftFlags_eq]
  split
  · rw [flagGet_drawFlags _ _ _ _ _ _ _ _ (by rcases hg with rfl | rfl <;> decide), flagGet_setSZP]
    rcases hg with rfl | rfl <;> rfl
  · rfl

theorem flagGet_cf_shiftFlags : flagGet (shiftFlags op x n fl) .cf = shiftCarry op x n fl := by
  rw [flagGet_shiftFlags op x n fl (.inl rfl), flagGet_cf_shiftCarryFlags]

theorem flagGet_of_shiftFlags_one :
    flagGet (shiftFlags op x 1 fl) .of = shiftOf op x (shiftRes op x 1 fl) (shiftCarry op x 1 fl) := by
  rw [flagGet_shiftFlags op x 1 fl (.inr rfl), flagGet_of_shiftCarryFlags_one]

theorem shiftOf_eq_overflowOfOne (res : BitVec w) (cf : Bool) : shiftOf op x res cf = overflowOfOne op x res cf := by
  cases op <;> simp only [shiftOf, overflowOfOne, BitVec.msb_eq_getLsbD_last]

theorem shiftSetsSZP_iff : shiftSetsSZP op = true ↔ op = .shl ∨ op = .shr ∨ op = .sar := by
  cases op <;> simp [shiftSetsSZP]

theorem shiftWrites_eq : shiftWrites op = if shiftSetsSZP op then arithFlags else [.cf, .of] := by
  cases op <;> rfl

theorem szpOf_shiftFlags (h : shiftSetsSZP op = true) : SzpOf (shiftRes op x n fl) (shiftFlags op x n fl) := by
  rw [shiftFlags_eq, if_pos h]
  have hkeeps (g : Flag) (hg : g ∉ [Flag.af]) := flagGet_drawFlags (shiftUndef op) w x.toNat n fl g [.af]
    (setSZP (shiftCarryFlags op x n fl) (shiftRes op x n fl)) hg
  exact (szpOf_setSZP _ _).of_eq (hkeeps .sf (by decide)) (hkeeps .zf (by decide)) (hkeeps .pf (by decide))

theorem shiftFlags_kept_shiftWrites : KeptFlags (shiftWrites op) fl (shiftFlags op x n fl) := by
  rw [shiftWrites_eq]
  split
  next h => exact shiftFlags_kept op x n fl
  next h =>
    rw [shiftFlags_eq, if_neg h]
    exact shiftCarryFlags_kept op x n fl

/-- Everything the result and the flags of a shift by `n ≥ 1` are (R327-R333). -/
theorem shiftFlags_spec (hw : 1 < w) (hn : n ≠ 0) : ShiftFlagsOf op x n (shiftRes op x n fl) fl (shiftFlags op x n fl) := by
  refine ⟨?_, ?_, fun h => szpOf_shiftFlags op x n fl ((shiftSetsSZP_iff op).mpr h), shiftFlags_kept_shiftWrites op x n fl⟩
  · obtain ⟨m, rfl⟩ := Nat.exists_eq_succ_of_ne_zero hn
    rw [flagGet_cf_shiftFlags]
    exact shiftedTo_shiftSteps hw op x (flagGet fl .cf) m
  · rintro rfl
    rw [flagGet_of_shiftFlags_one, shiftOf_eq_overflowOfOne, flagGet_cf_shiftFlags]

end ShiftFlags

/-! ## Shifts and rotates (O11) -/

section ShiftForms

variable {s u : State} {i : Instr} {op : ShiftOp} {raw : Byte}

/-- A shift of width 8 after the read of its count: the operand is read, and at a count other than 0 it is written (R326). -/
theorem OnlyRecords.shift8_eq (h : OnlyRecords s u) (op : ShiftOp) (e : Rm8) (raw : Byte) :
    ∃ k, u.shift8 op e raw = if s.shiftCount raw = 0 then s.record k
      else ((s.record k).setFlags (shiftFlags op (s.rm8 e) (s.shiftCount raw) s.flags)).write8 (s.loc8 e)
        (shiftRes op (s.rm8 e) (s.shiftCount raw) s.flags) := by
  obtain ⟨k, hk⟩ := h.trans (onlyRecords_fetch8 u e)
  obtain ⟨l, rfl⟩ := h
  refine ⟨k, ?_⟩
  rw [← hk]
  rfl

/-- A shift of width 16 after the read of its count: the operand is read, and at a count other than 0 it is written (R326). -/
theorem OnlyRecords.shift16_eq (h : OnlyRecords s u) (op : ShiftOp) (e : Rm16) (raw : Byte) :
    ∃ k, u.shift16 op e raw = if s.shiftCount raw = 0 then s.record k
      else ((s.record k).setFlags (shiftFlags op (s.rm16 e) (s.shiftCount raw) s.flags)).write16 (s.loc16 e)
        (shiftRes op (s.rm16 e) (s.shiftCount raw) s.flags) := by
  obtain ⟨k, hk⟩ := h.trans (onlyRecords_fetch16 u e)
  obtain ⟨l, rfl⟩ := h
  refine ⟨k, ?_⟩
  rw [← hk]
  rfl

/-- Entries of the fault record, and IP, are no data. -/
theorem sameData_record (s : State) (l : List FaultRecord) (i : Instr) : SameData s ((s.record l).advance i) :=
  ⟨rfl, fun _ _ => ⟨rfl, rfl⟩, SameStores.sameMem ⟨rfl, rfl, rfl, rfl, rfl, rfl⟩⟩

/-- The forms of width 8 (R327-R333). -/
theorem shift8_shifts {e : Rm8} (h : OnlyRecords s u) (hx : exec i s = .next ((u.shift8 op e raw).advance i)) :
    Shifts8 s i op e raw := by
  obtain ⟨k, hk⟩ := h.shift8_eq op e raw
  rw [hk] at hx
  by_cases hn : s.shiftCount raw = 0
  · rw [if_pos hn] at hx
    exact ⟨_, hx, plain_of_record k, (if_pos hn).mpr (sameData_record s k i)⟩
  · rw [if_neg hn] at hx
    refine ⟨_, hx, plain_write8 .., (if_neg hn).mpr ⟨_, wrote8_advance .., ?_⟩⟩
    rw [advance_flags, write8_flags]
    exact shiftFlags_spec op _ _ _ (by decide) hn

/-- The forms of width 16 (R327-R333). -/
theorem shift16_shifts {e : Rm16} (h : OnlyRecords s u) (hx : exec i s = .next ((u.shift16 op e raw).advance i)) :
    Shifts16 s i op e raw := by
  obtain ⟨k, hk⟩ := h.shift16_eq op e raw
  rw [hk] at hx
  by_cases hn : s.shiftCount raw = 0
  · rw [if_pos hn] at hx
    exact ⟨_, hx, plain_of_record k, (if_pos hn).mpr (sameData_record s k i)⟩
  · rw [if_neg hn] at hx
    refine ⟨_, hx, plain_write16 .., (if_neg hn).mpr ⟨_, wrote16_advance .., ?_⟩⟩
    rw [advance_flags, write16_flags]
    exact shiftFlags_spec op _ _ _ (by decide) hn

end ShiftForms

/-- Settles O11: each form is the shift of its operation, its count an immediate, 1 or CL. There are six forms
of each operation. -/
theorem shiftAndRotateForms : Obligations.ShiftAndRotateForms := by
  unfold Obligations.ShiftAndRotateForms
  intro s e x b
  have imm := onlyRecords_refl s
  have cl := onlyRecords_note8 s .cl
  exact ⟨shift8_shifts imm rfl, shift16_shifts imm rfl, shift8_shifts imm rfl, shift16_shifts imm rfl,
    shift8_shifts cl rfl, shift16_shifts cl rfl,
    shift8_shifts imm rfl, shift16_shifts imm rfl, shift8_shifts imm rfl, shift16_shifts imm rfl,
    shift8_shifts cl rfl, shift16_shifts cl rfl,
    shift8_shifts imm rfl, shift16_shifts imm rfl, shift8_shifts imm rfl, shift16_shifts imm rfl,
    shift8_shifts cl rfl, shift16_shifts cl rfl,
    shift8_shifts imm rfl, shift16_shifts imm rfl, shift8_shifts imm rfl, shift16_shifts imm rfl,
    shift8_shifts cl rfl, shift16_shifts cl rfl,
    shift8_shifts imm rfl, shift16_shifts imm rfl, shift8_shifts imm rfl, shift16_shifts imm rfl,
    shift8_shifts cl rfl, shift16_shifts cl rfl,
    shift8_shifts imm rfl, shift16_shifts imm rfl, shift8_shifts imm rfl, shift16_shifts imm rfl,
    shift8_shifts cl rfl, shift16_shifts cl rfl,
    shift8_shifts imm rfl, shift16_shifts imm rfl, shift8_shifts imm rfl, shift16_shifts imm rfl,
    shift8_shifts cl rfl, shift16_shifts cl rfl⟩

end Sys2Proof.Machine

namespace Sys2Proof.Machine

/-! ## String instructions: the index registers and the end of an iteration (R360, R361) -/

/-- Each of the listed index registers moves by an element of `n` bytes (R360). -/
def stepIndices (n : Word) : List Reg16 → State → State
  | [], w => w
  | r :: l, w => stepIndices n l (w.bump r n)

/-- The element's transfer is done and its index registers are still to move: from `s`, general registers have changed
only in `k`, and nothing else that the repeat mechanism or an index step reads has. -/
structure BeforeIndexSteps (k : List Reg16) (s w : State) : Prop where
  regs : SameRegsBut k s w
  df : flagGet w.flags .df = flagGet s.flags .df
  ip : w.ip = s.ip
  cur : w.cur = s.cur

/-- From `w`, the index registers `l` have moved by an element of `n` bytes, and CX and IP may have changed. -/
structure ElementEnds (l : List Reg16) (n : Word) (w t : State) : Prop where
  rest : t = { w with regs := t.regs, unset := t.unset, ip := t.ip }
  regs : SameRegsBut (.cx :: l) w t
  steps : ∀ r ∈ l, t.reg16 r = stepped w r n

theorem stepIndices_regs (n : Word) (l : List Reg16) (w : State) : SameRegsBut l w (stepIndices n l w) := by
  induction l generalizing w with
  | nil => exact fun _ _ => ⟨rfl, rfl⟩
  | cons r l ih =>
    have hbump : SameRegsBut [r] w (w.bump r n) := (setWordReg_setReg16 (Untouched.refl w) r _).2
    exact (hbump.mono (by simp)).trans ((ih (w.bump r n)).mono (by simp +contextual))

theorem stepIndices_rest (n : Word) (l : List Reg16) (w : State) :
    stepIndices n l w = { w with regs := (stepIndices n l w).regs, unset := (stepIndices n l w).unset } := by
  induction l generalizing w with
  | nil => rfl
  | cons r l ih => exact ih (w.bump r n)

theorem stepIndices_reg16 {n : Word} {l : List Reg16} (hl : l.Nodup) (w : State) {r : Reg16} (hr : r ∈ l) :
    (stepIndices n l w).reg16 r = stepped w r n := by
  induction l generalizing w with
  | nil => simp at hr
  | cons q l ih =>
    obtain ⟨hq, hl⟩ := List.nodup_cons.mp hl
    by_cases hrq : r = q
    · subst hrq
      calc (stepIndices n l (w.bump r n)).reg16 r = (w.bump r n).reg16 r := (stepIndices_regs n l _ r hq).1
        _ = stepped w r n := by rw [← stepped_eq]; simp [State.bump]
    · have hmem : r ∈ l := (List.mem_cons.mp hr).resolve_left hrq
      calc (stepIndices n l (w.bump q n)).reg16 r = stepped (w.bump q n) r n := ih hl _ hmem
        _ = stepped w r n := by simp [← stepped_eq, State.bump, hrq]

theorem elementEnds_stepIndices {n : Word} {l : List Reg16} (hl : l.Nodup) (w : State) :
    ElementEnds l n w (stepIndices n l w) where
  rest := by rw [stepIndices_rest]
  regs := (stepIndices_regs n l w).mono fun _ => List.mem_cons_of_mem _
  steps _ := stepIndices_reg16 hl w

namespace ElementEnds

variable {k l : List Reg16} {n : Word} {s w t : State}

theorem setCx (h : ElementEnds l n w t) (hcx : .cx ∉ l) (v : Word) : ElementEnds l n w (t.setReg16 .cx v) where
  rest := by rw [h.rest]; rfl
  regs := h.regs.setReg16 List.mem_cons_self v
  steps r hr := by
    have hne : r ≠ .cx := fun e => hcx (e ▸ hr)
    simp [hne, h.steps r hr]

theorem setIp (h : ElementEnds l n w t) (v : Word) : ElementEnds l n w (t.setIp v) where
  rest := by rw [h.rest]; rfl
  regs := h.regs.trans fun _ _ => ⟨rfl, rfl⟩
  steps := h.steps

theorem sameCore (h : ElementEnds l n w t) : SameCore w t := by
  rw [h.rest]
  exact ⟨by constructor <;> rfl, rfl, rfl, rfl, List.prefix_rfl⟩

theorem segs (h : ElementEnds l n w t) : t.segs = w.segs := by rw [h.rest]

theorem flags (h : ElementEnds l n w t) : t.flags = w.flags := by rw [h.rest]

theorem sameMem (h : ElementEnds l n w t) : SameMem w t := by
  rw [h.rest]
  exact SameStores.sameMem (by constructor <;> rfl)

/-- The registers that neither the transfer nor the index steps write, CX apart. -/
theorem sameRegs (h : ElementEnds l n w t) (hb : BeforeIndexSteps k s w) : SameRegsBut (.cx :: (k ++ l)) s t :=
  (hb.regs.mono (by simp +contextual)).trans (h.regs.mono (by simp +contextual))

/-- The frame of an element whose transfer changes nothing outside general registers, FLAGS and memory. -/
theorem frame (h : ElementEnds l n w t) (hb : BeforeIndexSteps k s w) (hcore : SameCore s w) (hsegs : w.segs = s.segs) :
    ElementFrame (k ++ l) s t :=
  ⟨hcore.trans h.sameCore, h.segs.trans hsegs, h.sameRegs hb⟩

/-- An index register that the transfer does not write moves by one element. -/
theorem index (h : ElementEnds l n w t) (hb : BeforeIndexSteps k s w) {r : Reg16} (hr : r ∈ l) (hk : r ∉ k) :
    t.reg16 r = stepped s r n := by
  rw [h.steps r hr, stepped, stepped, hb.df, (hb.regs r hk).1]

/-- What an `OUTS` has written stays written. -/
theorem portWritten {u : State} (h : ElementEnds l n w t) (hw : PortWritten s u w) : PortWritten s u t := by
  rw [h.rest]
  exact { hw with }

end ElementEnds

theorem StringRuns.mono {s : State} {i : Instr} {P Q : State → Prop} {stops : RepKind → Word → Bool}
    (h : StringRuns s i P stops) (hPQ : ∀ t, P t → Q t) : StringRuns s i Q stops := by
  obtain ⟨hone, hnone, hiter⟩ := h
  refine ⟨fun hr => ?_, hnone, fun k hr hcx => ?_⟩
  · obtain ⟨t, hx, hp, hrest⟩ := hone hr
    exact ⟨t, hx, hPQ t hp, hrest⟩
  · obtain ⟨t, hx, hp, hrest⟩ := hiter k hr hcx
    exact ⟨t, hx, hPQ t hp, hrest⟩

/-- A string instruction whose element is a transfer as `E` says and then index steps (R361). -/
theorem element_runs {s : State} {i : Instr} {elem : State → State} {stops : RepKind → Word → Bool} {E : State → Prop}
    (k l : List Reg16) {n : Word} (hx : exec i s = .next (s.stringStep i elem stops)) (hd : (.cx :: (k ++ l)).Nodup)
    (he : ∀ u, OnlyRecords s u → ∃ w, BeforeIndexSteps k s w ∧ E w ∧ elem u = stepIndices n l w) :
    StringRuns s i (fun t => ∃ w, BeforeIndexSteps k s w ∧ E w ∧ ElementEnds l n w t) stops := by
  obtain ⟨hcx, hkl⟩ := List.nodup_cons.mp hd
  obtain ⟨hcxk, hcxl⟩ : .cx ∉ k ∧ .cx ∉ l := by simpa using hcx
  refine stringStep_runs hx (fun u hu => ?_) ?_ ?_
  · obtain ⟨w, hb, hw, hel⟩ := he u hu
    rw [hel]
    refine ⟨⟨w, hb, hw, elementEnds_stepIndices (List.nodup_append.mp hkl).2.1 w⟩, ?_, ?_, ?_⟩
    · exact (stepIndices_regs n l w .cx hcxl).1.trans (hb.regs .cx hcxk).1
    · rw [stepIndices_rest, hb.ip]
    · rw [stepIndices_rest, hb.cur]
  · rintro t v ⟨w, hb, hw, ht⟩
    exact ⟨w, hb, hw, ht.setCx hcxl v⟩
  · rintro t v ⟨w, hb, hw, ht⟩
    exact ⟨w, hb, hw, ht.setIp v⟩

/-! ### Source and destination elements after some reads -/

namespace OnlyRecords

variable {s u : State}

theorem note16 (h : OnlyRecords s u) (r : Reg16) : OnlyRecords s (u.note16 r) := h.record _

theorem note8 (h : OnlyRecords s u) (r : Reg8) : OnlyRecords s (u.note8 r) := h.record _

theorem noteSrcElem8 (h : OnlyRecords s u) : OnlyRecords s u.noteSrcElem8 := (h.note16 .si).record _

theorem noteSrcElem16 (h : OnlyRecords s u) : OnlyRecords s u.noteSrcElem16 := (h.note16 .si).record _

theorem noteDstElem8 (h : OnlyRecords s u) : OnlyRecords s u.noteDstElem8 := (h.note16 .di).record _

theorem noteDstElem16 (h : OnlyRecords s u) : OnlyRecords s u.noteDstElem16 := (h.note16 .di).record _

theorem srcSeg (h : OnlyRecords s u) : u.srcSeg = sourceSeg s := by
  obtain ⟨m, rfl⟩ := h
  exact segOr_ds s

theorem srcElem8 (h : OnlyRecords s u) : u.srcElem8 = s.mem8 (sourceSeg s) (s.reg16 .si) := by
  rw [State.srcElem8, h.srcSeg, h.untouched.reg16, h.untouched.stores.mem8]

theorem srcElem16 (h : OnlyRecords s u) : u.srcElem16 = s.mem16 (sourceSeg s) (s.reg16 .si) := by
  rw [State.srcElem16, h.srcSeg, h.untouched.reg16, h.untouched.stores.mem16]

theorem dstElem8 (h : OnlyRecords s u) : u.dstElem8 = s.mem8 s.segs.es (s.reg16 .di) := by
  rw [State.dstElem8, h.sameControl.segs, h.untouched.reg16, h.untouched.stores.mem8]

theorem dstElem16 (h : OnlyRecords s u) : u.dstElem16 = s.mem16 s.segs.es (s.reg16 .di) := by
  rw [State.dstElem16, h.sameControl.segs, h.untouched.reg16, h.untouched.stores.mem16]

theorem portRead8 (h : OnlyRecords s u) (p : Word) : u.portRead8 p = s.portRead8 p := by
  obtain ⟨m, rfl⟩ := h
  rfl

theorem portRead16 (h : OnlyRecords s u) (p : Word) : u.portRead16 p = s.portRead8 (p + 1#16) ++ s.portRead8 p := by
  rw [State.portRead16, h.portRead8, h.portRead8]

end OnlyRecords

/-! ## Elements that are stored: MOVS, STOS and INS (R362, R366, R367) -/

/-- The destination element is written, as `M` says, and nothing else. -/
structure PutElement (M : State → Prop) (s w : State) : Prop where
  control : SameControl s w
  regs : SameRegsBut [] s w
  stored : M w

theorem putDst8_puts {s u : State} (h : OnlyRecords s u) {v x : Byte} (hv : x = v) :
    PutElement (fun t => Stored8 s t s.segs.es (s.reg16 .di) v) s (u.putDst8 x) := by
  rw [hv, State.putDst8, h.sameControl.segs, h.untouched.reg16]
  have hrec := h.note16 .di
  exact ⟨hrec.sameControl.write8 (.mem _ _) v, fun r _ => by simp [hrec.untouched.reg16, hrec.untouched.unset],
    stored8_writeMem8 hrec.untouched _ _ v⟩

theorem putDst16_puts {s u : State} (h : OnlyRecords s u) {v x : Word} (hv : x = v) :
    PutElement (fun t => Stored16 s t s.segs.es (s.reg16 .di) v) s (u.putDst16 x) := by
  rw [hv, State.putDst16, h.sameControl.segs, h.untouched.reg16]
  have hrec := h.note16 .di
  exact ⟨hrec.sameControl.write16 (.mem _ _) v, fun r _ => by simp [hrec.untouched.reg16, hrec.untouched.unset],
    stored16_writeMem16 hrec.untouched _ _ v⟩

theorem SameControl.beforeIndexSteps {k : List Reg16} {s w : State} (h : SameControl s w) (hregs : SameRegsBut k s w) :
    BeforeIndexSteps k s w :=
  ⟨hregs, by rw [h.flags], h.ip, h.core.cur⟩

section Runs

variable {s : State} {i : Instr} {elem : State → State} {stops : RepKind → Word → Bool} {l : List Reg16} {n : Word}

theorem putElement_runs {M : State → Prop} (l : List Reg16) (hx : exec i s = .next (s.stringStep i elem stops))
    (hd : (.cx :: l).Nodup) (hM : ∀ {w t}, M w → SameMem w t → M t)
    (he : ∀ u, OnlyRecords s u → ∃ w, PutElement M s w ∧ elem u = stepIndices n l w) :
    StringRuns s i (fun t => ElementFrame l s t ∧ t.flags = s.flags ∧ (∀ r ∈ l, t.reg16 r = stepped s r n) ∧ M t) stops := by
  have hrun := element_runs (E := PutElement M s) [] l hx hd fun u hu => by
    obtain ⟨w, hw, hel⟩ := he u hu
    exact ⟨w, hw.control.beforeIndexSteps hw.regs, hw, hel⟩
  refine hrun.mono ?_
  rintro t ⟨w, hb, hw, ht⟩
  exact ⟨ht.frame hb hw.control.core hw.control.segs, ht.flags.trans hw.control.flags,
    fun r hr => ht.index hb hr List.not_mem_nil, hM hw.stored ht.sameMem⟩

/-- As `putElement_runs`, where DI alone moves. -/
theorem storeElement_runs {M : State → Prop} (hx : exec i s = .next (s.stringStep i elem stops))
    (hM : ∀ {w t}, M w → SameMem w t → M t)
    (he : ∀ u, OnlyRecords s u → ∃ w, PutElement M s w ∧ elem u = stepIndices n [.di] w) :
    StringRuns s i (fun t => ElementFrame [.di] s t ∧ t.flags = s.flags ∧ t.reg16 .di = stepped s .di n ∧ M t) stops := by
  refine (putElement_runs [.di] hx (by decide) hM he).mono ?_
  rintro t ⟨hframe, hflags, hsteps, hstored⟩
  exact ⟨hframe, hflags, hsteps .di (by simp), hstored⟩

/-- As `putElement_runs`, where SI and DI move. -/
theorem moveElement_runs {M : State → Prop} (hx : exec i s = .next (s.stringStep i elem stops))
    (hM : ∀ {w t}, M w → SameMem w t → M t)
    (he : ∀ u, OnlyRecords s u → ∃ w, PutElement M s w ∧ elem u = stepIndices n [.si, .di] w) :
    StringRuns s i (fun t => ElementFrame [.si, .di] s t ∧ t.flags = s.flags ∧ t.reg16 .si = stepped s .si n
      ∧ t.reg16 .di = stepped s .di n ∧ M t) stops := by
  refine (putElement_runs [.si, .di] hx (by decide) hM he).mono ?_
  rintro t ⟨hframe, hflags, hsteps, hstored⟩
  exact ⟨hframe, hflags, hsteps .si (by simp), hsteps .di (by simp), hstored⟩

/-! ## Elements that are loaded: LODS (R365) -/

theorem loadElement_runs {v : Word} (hx : exec i s = .next (s.stringStep i elem stops))
    (he : ∀ u, OnlyRecords s u → ∃ w, SameControl s w ∧ SameMem s w ∧ SetWordReg s w .ax v ∧ elem u = stepIndices n [.si] w) :
    StringRuns s i (fun t => ElementFrame [.ax, .si] s t ∧ t.flags = s.flags ∧ SameMem s t ∧ t.reg16 .si = stepped s .si n
      ∧ t.reg16 .ax = v) stops := by
  have hrun := element_runs (E := fun w => SameControl s w ∧ SameMem s w ∧ w.reg16 .ax = v) [.ax] [.si] hx (by decide)
    fun u hu => by
      obtain ⟨w, hctl, hmem, ⟨hax, hregs⟩, hel⟩ := he u hu
      exact ⟨w, hctl.beforeIndexSteps hregs, ⟨hctl, hmem, hax⟩, hel⟩
  refine hrun.mono ?_
  rintro t ⟨w, hb, ⟨hctl, hmem, hax⟩, ht⟩
  exact ⟨ht.frame hb hctl.core hctl.segs, ht.flags.trans hctl.flags, hmem.trans ht.sameMem,
    ht.index hb List.mem_cons_self (by decide), (ht.regs .ax (by decide)).1.trans hax⟩

/-! ## Elements that are written to ports: OUTS (R368) -/

theorem portElement_runs {p : State} (hx : exec i s = .next (s.stringStep i elem stops))
    (he : ∀ u, OnlyRecords s u →
      ∃ w, PortWritten s p w ∧ SameRegsBut [] s w ∧ w.ip = s.ip ∧ elem u = stepIndices n [.si] w) :
    StringRuns s i (fun t => PortWritten s p t ∧ SameRegsBut [.cx, .si] s t ∧ t.reg16 .si = stepped s .si n) stops := by
  have hrun := element_runs (E := PortWritten s p) [] [.si] hx (by decide) fun u hu => by
    obtain ⟨w, hw, hregs, hip, hel⟩ := he u hu
    exact ⟨w, ⟨hregs, by rw [hw.flags], hip, hw.cur⟩, hw, hel⟩
  refine hrun.mono ?_
  rintro t ⟨w, hb, hw, ht⟩
  exact ⟨ht.portWritten hw, ht.sameRegs hb, ht.index hb List.mem_cons_self List.not_mem_nil⟩

/-! ## Elements that are compared: CMPS and SCAS (R363, R364) -/

theorem compareElement_runs {m : Nat} {a b : BitVec m} (hm : 4 < m) (l : List Reg16)
    (hx : exec i s = .next (s.stringStep i elem stops)) (hd : (.cx :: l).Nodup)
    (he : ∀ u, OnlyRecords s u → ∃ v, OnlyRecords s v ∧ elem u = stepIndices n l (v.setFlags (subFlags a b false s.flags))) :
    StringRuns s i (fun t => ElementFrame l s t ∧ SameMem s t ∧ (∀ r ∈ l, t.reg16 r = stepped s r n)
      ∧ (∃ v, DifferenceOf a b false v s.flags t.flags) ∧ flagGet t.flags .cf = decide (a.toNat < b.toNat)) stops := by
  obtain ⟨hdiff, hcf⟩ := subFlags_spec hm a b false s.flags
  have hdf : flagGet (subFlags a b false s.flags) .df = flagGet s.flags .df := by
    obtain ⟨-, -, -, -, hkept⟩ := hdiff
    exact hkept _ (by decide)
  have hrun := element_runs (E := fun w => ∃ v, OnlyRecords s v ∧ w = v.setFlags (subFlags a b false s.flags)) [] l hx hd
    fun u hu => by
      obtain ⟨v, hv, hel⟩ := he u hu
      exact ⟨v.setFlags (subFlags a b false s.flags),
        ⟨hv.untouched.sameRegs [], hdf, hv.sameControl.ip, hv.sameControl.core.cur⟩, ⟨v, hv, rfl⟩, hel⟩
  refine hrun.mono ?_
  rintro t ⟨w, hb, ⟨v, hv, rfl⟩, ht⟩
  have hcore : SameCore s (v.setFlags (subFlags a b false s.flags)) :=
    hv.sameCore.trans ⟨by constructor <;> rfl, rfl, rfl, rfl, List.prefix_rfl⟩
  have hmem : SameMem s (v.setFlags (subFlags a b false s.flags)) :=
    hv.untouched.sameMem.trans (untouched_setFlags v _).sameMem
  have hflags : t.flags = subFlags a b false s.flags := ht.flags
  rw [hflags]
  exact ⟨ht.frame hb hcore hv.sameControl.segs, hmem.trans ht.sameMem, fun r hr => ht.index hb hr List.not_mem_nil,
    ⟨_, hdiff⟩, by simpa using hcf⟩

/-- CMPS: both index registers move (R363). -/
theorem cmpsElement_runs {m : Nat} {a b : BitVec m} (hm : 4 < m) (hx : exec i s = .next (s.stringStep i elem stops))
    (he : ∀ u, OnlyRecords s u →
      ∃ v, OnlyRecords s v ∧ elem u = stepIndices n [.si, .di] (v.setFlags (subFlags a b false s.flags))) :
    StringRuns s i (fun t => ElementFrame [.si, .di] s t ∧ SameMem s t ∧ t.reg16 .si = stepped s .si n
      ∧ t.reg16 .di = stepped s .di n ∧ (∃ v, DifferenceOf a b false v s.flags t.flags)
      ∧ flagGet t.flags .cf = decide (a.toNat < b.toNat)) stops := by
  refine (compareElement_runs hm [.si, .di] hx (by decide) he).mono ?_
  rintro t ⟨hframe, hmem, hsteps, hdiff, hcf⟩
  exact ⟨hframe, hmem, hsteps .si (by simp), hsteps .di (by simp), hdiff, hcf⟩

/-- SCAS: DI alone moves (R364). -/
theorem scasElement_runs {m : Nat} {a b : BitVec m} (hm : 4 < m) (hx : exec i s = .next (s.stringStep i elem stops))
    (he : ∀ u, OnlyRecords s u →
      ∃ v, OnlyRecords s v ∧ elem u = stepIndices n [.di] (v.setFlags (subFlags a b false s.flags))) :
    StringRuns s i (fun t => ElementFrame [.di] s t ∧ SameMem s t ∧ t.reg16 .di = stepped s .di n
      ∧ (∃ v, DifferenceOf a b false v s.flags t.flags) ∧ flagGet t.flags .cf = decide (a.toNat < b.toNat)) stops := by
  refine (compareElement_runs hm [.di] hx (by decide) he).mono ?_
  rintro t ⟨hframe, hmem, hsteps, hdiff, hcf⟩
  exact ⟨hframe, hmem, hsteps .di (by simp), hdiff, hcf⟩

end Runs

/-! ## MOVS, LODS, STOS, INS and OUTS (O21) -/

section TransferElements

variable {s u : State}

/-- LODSB keeps the high half of AX (R365, R32). -/
theorem lodsElem8_loads (h : OnlyRecords s u) : ∃ w, SameControl s w ∧ SameMem s w
    ∧ SetWordReg s w .ax (s.reg8 .ah ++ s.mem8 (sourceSeg s) (s.reg16 .si)) ∧ u.lodsElem8 = stepIndices 1#16 [.si] w := by
  have hrec := h.noteSrcElem8
  obtain ⟨-, hregs⟩ := setByteReg_setReg8 hrec.untouched .al u.srcElem8
  have hax : (u.noteSrcElem8.setReg8 .al u.srcElem8).reg16 .ax = s.reg8 .ah ++ s.mem8 (sourceSeg s) (s.reg16 .si) := by
    rw [setReg8_reg16, hrec.untouched.reg16, h.srcElem8]
    rfl
  exact ⟨_, hrec.sameControl.setReg8 .al _, untouched_setReg8_mem hrec.untouched .al _, ⟨hax, hregs⟩, rfl⟩

theorem lodsElem16_loads (h : OnlyRecords s u) : ∃ w, SameControl s w ∧ SameMem s w
    ∧ SetWordReg s w .ax (s.mem16 (sourceSeg s) (s.reg16 .si)) ∧ u.lodsElem16 = stepIndices 2#16 [.si] w := by
  have hrec := h.noteSrcElem16
  rw [← h.srcElem16]
  exact ⟨_, hrec.sameControl.setReg16 .ax _, untouched_setReg16_mem hrec.untouched .ax _,
    setWordReg_setReg16 hrec.untouched .ax _, rfl⟩

theorem outsElem8_writes (h : OnlyRecords s u) :
    ∃ w, PortWritten s (s.portWrite8 (s.reg16 .dx) (s.mem8 (sourceSeg s) (s.reg16 .si))) w ∧ SameRegsBut [] s w
      ∧ w.ip = s.ip ∧ u.outsElem8 = stepIndices 1#16 [.si] w := by
  have helem : u.outsElem8
      = stepIndices 1#16 [.si] ((u.noteSrcElem8.note16 .dx).portWrite8 (u.reg16 .dx) u.srcElem8) := rfl
  rw [h.untouched.reg16, h.srcElem8] at helem
  obtain ⟨l, hl⟩ := h.noteSrcElem8.note16 .dx
  rw [hl, record_portWrite8] at helem
  exact ⟨_, by constructor <;> simp, fun r _ => by simp, by simp, helem⟩

/-- OUTSW writes the low byte first (R368, R130). -/
theorem outsElem16_writes (h : OnlyRecords s u) :
    ∃ w, PortWritten s ((s.portWrite8 (s.reg16 .dx) (s.mem8 (sourceSeg s) (s.reg16 .si))).portWrite8
        (s.reg16 .dx + 1#16) (s.mem8 (sourceSeg s) (s.reg16 .si + 1#16))) w ∧ SameRegsBut [] s w
      ∧ w.ip = s.ip ∧ u.outsElem16 = stepIndices 2#16 [.si] w := by
  have helem : u.outsElem16
      = stepIndices 2#16 [.si] ((u.noteSrcElem16.note16 .dx).portWrite16 (u.reg16 .dx) u.srcElem16) := rfl
  rw [h.untouched.reg16, h.srcElem16, State.portWrite16, State.mem16, loByte_append, hiByte_append] at helem
  obtain ⟨l, hl⟩ := h.noteSrcElem16.note16 .dx
  rw [hl, record_portWrite8, record_portWrite8] at helem
  exact ⟨_, by constructor <;> simp, fun r _ => by simp, by simp, helem⟩

end TransferElements

theorem lodsb_runs (s : State) : StringRuns s .lodsb
    (fun t => ElementFrame [.ax, .si] s t ∧ t.flags = s.flags ∧ SameMem s t ∧ t.reg16 .si = stepped s .si 1#16
      ∧ t.reg8 .al = s.mem8 (sourceSeg s) (s.reg16 .si) ∧ t.reg8 .ah = s.reg8 .ah) (fun _ _ => false) := by
  refine (loadElement_runs rfl fun _ => lodsElem8_loads).mono ?_
  rintro t ⟨hframe, hflags, hmem, hsi, hax⟩
  have hal : t.reg8 .al = loByte (t.reg16 .ax) := rfl
  have hah : t.reg8 .ah = hiByte (t.reg16 .ax) := rfl
  exact ⟨hframe, hflags, hmem, hsi, by rw [hal, hax, loByte_append], by rw [hah, hax, hiByte_append]⟩

/-- Settles O21: each element is a transfer and then its index steps, and the repeat mechanism runs it. -/
theorem stringTransfers : Obligations.StringTransfers := by
  unfold Obligations.StringTransfers
  constructor <;> intro s
  · exact ⟨moveElement_runs rfl Stored8.of_same fun _ h => ⟨_, putDst8_puts h.noteSrcElem8 h.srcElem8, rfl⟩,
      moveElement_runs rfl Stored16.of_same fun _ h => ⟨_, putDst16_puts h.noteSrcElem16 h.srcElem16, rfl⟩,
      lodsb_runs s,
      loadElement_runs rfl fun _ => lodsElem16_loads,
      storeElement_runs rfl Stored8.of_same fun _ h => ⟨_, putDst8_puts (h.note8 .al) (h.untouched.reg8 .al), rfl⟩,
      storeElement_runs rfl Stored16.of_same fun _ h => ⟨_, putDst16_puts (h.note16 .ax) (h.untouched.reg16 .ax), rfl⟩⟩
  · have hin8 {u : State} (h : OnlyRecords s u) : u.portRead8 (u.reg16 .dx) = s.portRead8 (s.reg16 .dx) := by
      rw [h.untouched.reg16, h.portRead8]
    have hin16 {u : State} (h : OnlyRecords s u) :
        u.portRead16 (u.reg16 .dx) = s.portRead8 (s.reg16 .dx + 1#16) ++ s.portRead8 (s.reg16 .dx) := by
      rw [h.untouched.reg16, h.portRead16]
    exact ⟨storeElement_runs rfl Stored8.of_same fun _ h => ⟨_, putDst8_puts (h.note16 .dx) (hin8 h), rfl⟩,
      storeElement_runs rfl Stored16.of_same fun _ h => ⟨_, putDst16_puts (h.note16 .dx) (hin16 h), rfl⟩,
      portElement_runs rfl fun _ => outsElem8_writes, portElement_runs rfl fun _ => outsElem16_writes⟩

/-! ## CMPS and SCAS (O22) -/

section CompareElements

variable {s u : State}

theorem cmpsElem8_compares (h : OnlyRecords s u) : ∃ v, OnlyRecords s v ∧ u.cmpsElem8
    = stepIndices 1#16 [.si, .di] (v.setFlags
        (subFlags (s.mem8 (sourceSeg s) (s.reg16 .si)) (s.mem8 s.segs.es (s.reg16 .di)) false s.flags)) :=
  ⟨_, h.noteSrcElem8.noteDstElem8, by rw [← h.srcElem8, ← h.dstElem8, ← h.sameControl.flags]; rfl⟩

theorem cmpsElem16_compares (h : OnlyRecords s u) : ∃ v, OnlyRecords s v ∧ u.cmpsElem16
    = stepIndices 2#16 [.si, .di] (v.setFlags
        (subFlags (s.mem16 (sourceSeg s) (s.reg16 .si)) (s.mem16 s.segs.es (s.reg16 .di)) false s.flags)) :=
  ⟨_, h.noteSrcElem16.noteDstElem16, by rw [← h.srcElem16, ← h.dstElem16, ← h.sameControl.flags]; rfl⟩

theorem scasElem8_compares (h : OnlyRecords s u) : ∃ v, OnlyRecords s v ∧ u.scasElem8
    = stepIndices 1#16 [.di] (v.setFlags (subFlags (s.reg8 .al) (s.mem8 s.segs.es (s.reg16 .di)) false s.flags)) :=
  ⟨_, h.noteDstElem8.note8 .al, by rw [← h.untouched.reg8, ← h.dstElem8, ← h.sameControl.flags]; rfl⟩

theorem scasElem16_compares (h : OnlyRecords s u) : ∃ v, OnlyRecords s v ∧ u.scasElem16
    = stepIndices 2#16 [.di] (v.setFlags (subFlags (s.reg16 .ax) (s.mem16 s.segs.es (s.reg16 .di)) false s.flags)) :=
  ⟨_, h.noteDstElem16.note16 .ax, by rw [← h.dstElem16, ← h.untouched.reg16 .ax, ← h.sameControl.flags]; rfl⟩

end CompareElements

/-- Settles O22: each element writes the flags of one subtraction and then steps its index registers. -/
theorem stringCompares : Obligations.StringCompares := by
  unfold Obligations.StringCompares
  intro s
  exact ⟨cmpsElement_runs (by decide) rfl fun _ => cmpsElem8_compares,
    cmpsElement_runs (by decide) rfl fun _ => cmpsElem16_compares,
    scasElement_runs (by decide) rfl fun _ => scasElem8_compares,
    scasElement_runs (by decide) rfl fun _ => scasElem16_compares⟩

end Sys2Proof.Machine

namespace Sys2Proof.Machine

/-! ## Control transfer: what is kept when CS, IP and FLAGS are written -/

section Transfers

variable {s u : State} {i : Instr}

theorem SameCore.transfer (h : SameCore s u) (sg : Segs) (ip fl : Word) :
    SameCore s { u with segs := sg, ip := ip, flags := fl } :=
  h.trans ⟨by constructor <;> rfl, rfl, rfl, rfl, List.prefix_rfl⟩

theorem SameStores.transfer (h : SameStores s u) (sg : Segs) (ip fl : Word) :
    SameStores s { u with segs := sg, ip := ip, flags := fl } :=
  ⟨h.ram, h.rom, h.save, h.banks, h.cfg, h.ext⟩

theorem SameData.transfer (h : SameData s u) (sg : Segs) (ip : Word) : SameData s { u with segs := sg, ip := ip } :=
  ⟨h.flags, h.regs, h.mem.trans (SameStores.sameMem (by constructor <;> rfl))⟩

/-- A near transfer after some reads. -/
theorem OnlyRecords.jumpsTo (h : OnlyRecords s u) {ip : Word} (hx : exec i s = .next (u.setIp ip)) : JumpsTo s i ip :=
  ⟨_, hx, h.sameCore.transfer _ _ _, h.sameData.transfer _ _, h.sameControl.segs, rfl⟩

theorem SameControl.setCsIp_segs (h : SameControl s u) (cs ip : Word) :
    (u.setCsIp cs ip).segs = { s.segs with cs := cs } := by
  rw [← h.segs]
  rfl

/-- A far transfer after some reads. -/
theorem OnlyRecords.jumpsFar (h : OnlyRecords s u) {cs ip : Word} (hx : exec i s = .next (u.setCsIp cs ip)) :
    JumpsFar s i cs ip :=
  ⟨_, hx, h.sameCore.transfer _ _ _, h.sameData.transfer _ _, h.sameControl.setCsIp_segs cs ip, rfl⟩

/-- A branch writes IP alone (R404). -/
theorem branch_eq (u : State) (i : Instr) (c : Bool) (rel : Byte) :
    u.branch i c rel = u.setIp (if c then u.ipNext i + rel.signExtend 16 else u.ipNext i) := by
  cases c <;> rfl

theorem OnlyRecords.jumpsIf (h : OnlyRecords s u) {c : Bool} {rel : Byte} (hx : exec i s = .next (u.branch i c rel)) :
    JumpsIf s i c rel :=
  h.jumpsTo (by rw [hx, branch_eq, h.sameControl.ipNext])

/-! ## Calls and returns -/

/-- A near call, once its words are pushed. -/
theorem Pushed.callsTo {l : List Word} (h : Pushed s l u) {ip : Word} (hx : exec i s = .next (u.setIp ip)) :
    CallsTo s i l s.segs ip :=
  ⟨_, hx, h.core.transfer _ _ _, h.flags, h.segs, rfl, h.sp, (h.stores.transfer _ _ _).sameMem⟩

/-- A far call, once its words are pushed. -/
theorem Pushed.callsFar {l : List Word} (h : Pushed s l u) {cs ip : Word} (hx : exec i s = .next (u.setCsIp cs ip)) :
    CallsTo s i l { s.segs with cs := cs } ip :=
  ⟨_, hx, h.core.transfer _ _ _, h.flags, h.sameControl.setCsIp_segs cs ip, rfl, h.sp, (h.stores.transfer _ _ _).sameMem⟩

/-- A far call pushes CS and then `IP_next`, after some reads (R396, R398). -/
theorem OnlyRecords.callsFar (h : OnlyRecords s u) {cs ip : Word} (hx : exec i s = .next (u.callFar i cs ip)) :
    CallsTo s i [s.segs.cs, s.ipNext i] { s.segs with cs := cs } ip :=
  (((pushed_nil h).push s.segs.cs).push (s.ipNext i)).callsFar
    (by rw [hx, State.callFar, h.sameControl.segs, h.sameControl.ipNext])

/-- The immediate of a return raises SP further (R400, R402). -/
theorem Popped.raise {n : Word} (h : Popped s n u) (v : Word) : Popped s (n + v) (u.setReg16 .sp (u.reg16 .sp + v)) := by
  obtain ⟨hsp, hregs⟩ := h.sp
  have hctl := h.sameControl.setReg16 .sp (u.reg16 .sp + v)
  refine ⟨hctl.core, hctl.segs, hctl.flags, hctl.ip, ⟨?_, hregs.setReg16 (by decide) _⟩, h.stores.setReg16 .sp _⟩
  rw [setReg16_reg16, if_pos rfl, hsp, BitVec.add_assoc]

/-- A near return, once the stack is popped. -/
theorem Popped.returnsTo {n : Word} (h : Popped s n u) {ip : Word} (hx : exec i s = .next (u.setIp ip)) :
    ReturnsTo s i n s.segs ip :=
  ⟨_, hx, h.core.transfer _ _ _, h.flags, (h.stores.transfer _ _ _).sameMem, h.segs, rfl, h.sp⟩

/-- A far return, once the stack is popped. -/
theorem Popped.returnsFar {n : Word} (h : Popped s n u) {cs ip : Word} (hx : exec i s = .next (u.setCsIp cs ip)) :
    ReturnsTo s i n { s.segs with cs := cs } ip :=
  ⟨_, hx, h.core.transfer _ _ _, h.flags, (h.stores.transfer _ _ _).sameMem, h.sameControl.setCsIp_segs cs ip, rfl, h.sp⟩

/-! ## Loops -/

/-- The new CX is not 0 where the old one is not 1 (R405). -/
theorem loop_taken_iff (cx : Word) (c : Bool) : (decide (cx - 1#16 ≠ 0#16) && c) = true ↔ cx ≠ 1#16 ∧ c = true := by
  have hcx : cx - 1#16 ≠ 0#16 ↔ cx ≠ 1#16 := by bv_omega
  rw [Bool.and_eq_true, decide_eq_true_iff, hcx]

theorem loop_answers {c : Bool} {rel : Byte} (hx : exec i s = .next (s.loop i c rel)) :
    Answers i s fun t => SameCore s t ∧ t.segs = s.segs ∧ t.flags = s.flags ∧ SameMem s t
      ∧ SetWordReg s t .cx (s.reg16 .cx - 1#16)
      ∧ t.ip = if s.reg16 .cx ≠ 1#16 ∧ c = true then s.ipNext i + rel.signExtend 16 else s.ipNext i := by
  have hrec := onlyRecords_note16 s .cx
  have hctl := hrec.sameControl.setReg16 .cx (s.reg16 .cx - 1#16)
  have hstores := hrec.untouched.stores.setReg16 .cx (s.reg16 .cx - 1#16)
  rw [State.loop, branch_eq, hctl.ipNext] at hx
  refine ⟨_, hx, hctl.core.transfer _ _ _, hctl.segs, hctl.flags, (hstores.transfer _ _ _).sameMem,
    setWordReg_setReg16 hrec.untouched .cx _, ?_⟩
  exact if_congr (loop_taken_iff _ c) rfl rfl

/-! ## Interrupt entries and returns -/

/-- An interrupt entry after some reads (R490). -/
theorem OnlyRecords.enters (h : OnlyRecords s u) {n : Byte} {ret : Word} (hx : exec i s = .next (u.enter n ret)) :
    Enters s i n ret :=
  ⟨_, hx, enter_entered h n ret⟩

/-- An instruction that only reads and falls through. -/
theorem OnlyRecords.fallsThrough (h : OnlyRecords s u) (hx : exec i s = .next (u.advance i)) :
    Answers i s fun t => Plain i s t ∧ SameData s t :=
  ⟨_, hx, h.sameControl.plain i, h.sameData.transfer _ _⟩

end Transfers

/-- Settles O23: every form writes IP, the far ones CS too, after the reads of the operand. -/
theorem jumpForms : Obligations.JumpForms := by
  unfold Obligations.JumpForms
  constructor
  · intro s b v sg x m
    have hnone := onlyRecords_refl s
    exact ⟨hnone.jumpsTo rfl, hnone.jumpsTo rfl, hnone.jumpsFar rfl, (onlyRecords_fetch16 s x).jumpsTo rfl,
      (onlyRecords_noteFar s m).jumpsFar rfl⟩
  · intro s b
    have hnone := onlyRecords_refl s
    exact ⟨hnone.jumpsIf rfl, hnone.jumpsIf rfl, hnone.jumpsIf rfl, hnone.jumpsIf rfl, hnone.jumpsIf rfl, hnone.jumpsIf rfl,
      hnone.jumpsIf rfl, hnone.jumpsIf rfl, hnone.jumpsIf rfl, hnone.jumpsIf rfl, hnone.jumpsIf rfl, hnone.jumpsIf rfl,
      hnone.jumpsIf rfl, hnone.jumpsIf rfl, hnone.jumpsIf rfl, hnone.jumpsIf rfl⟩

/-- Settles O24: a call transfers after its pushes, a return after its pops. -/
theorem callAndReturnForms : Obligations.CallAndReturnForms := by
  unfold Obligations.CallAndReturnForms
  constructor
  · intro s v sg x m
    have hnone := onlyRecords_refl s
    exact ⟨((pushed_nil hnone).push _).callsTo rfl, ((pushed_nil (onlyRecords_fetch16 s x)).push _).callsTo rfl,
      hnone.callsFar rfl, (onlyRecords_noteFar s m).callsFar rfl⟩
  · intro s v
    have hone := popped_one s
    have htwo : Popped s 4#16 s.drop.drop := hone.drop
    rw [← top_eq, ← hone.top]
    exact ⟨hone.returnsTo rfl, (hone.raise v).returnsTo rfl, htwo.returnsFar rfl, (htwo.raise v).returnsFar rfl⟩

/-- Settles O25: the loops write CX and then branch; JCXZ only branches, after its read of CX. -/
theorem loopForms : Obligations.LoopForms := by
  unfold Obligations.LoopForms
  intro s b
  have hzero : decide (s.reg16 .cx = 0#16) = decide ((s.reg16 .cx).toNat = 0) :=
    decide_eq_decide.mpr BitVec.toNat_eq
  exact ⟨loop_answers rfl, loop_answers rfl, loop_answers rfl, (onlyRecords_note16 s .cx).jumpsIf (hzero ▸ rfl)⟩

/-- Settles O26: the bounds and the index are read, and the comparison decides between vector 5 and falling through. -/
theorem boundChecks : Obligations.BoundChecks := by
  unfold Obligations.BoundChecks
  intro s r m
  have hrec : OnlyRecords s ((s.noteFar m).note16 r) := (onlyRecords_noteFar s m).record _
  have hexceeded := boundExceeded_iff (s.reg16 r) (s.farOff m) (s.farSel m)
  constructor
  · intro hlo hhi
    exact hrec.fallsThrough (if_neg fun h => (hexceeded.mp h).elim (not_lt.mpr hlo) (not_lt.mpr hhi))
  · intro hout
    exact hrec.enters (if_pos (hexceeded.mpr hout))

/-- INTO by its OF (R429). -/
theorem into_answers (s : State) :
    if flagGet s.flags .of = true then Enters s .into 4#8 (s.ipNext .into)
    else Answers .into s fun t => Plain .into s t ∧ SameData s t := by
  have hnone := onlyRecords_refl s
  have hx : exec .into s = .next (if flagGet s.flags .of then s.enter 4#8 (s.ipNext .into) else s.advance .into) := rfl
  split
  next hof => exact hnone.enters (by rw [hx, if_pos hof])
  next hof => exact hnone.fallsThrough (by rw [hx, if_neg hof])

/-- IRET: the three pops, then CS, IP and FLAGS (R430). -/
theorem iret_answers (s : State) :
    Answers .iret s fun t => SameCore s t ∧ SameMem s t ∧ SetWordReg s t .sp (s.reg16 .sp + 6#16)
      ∧ t.ip = topWord s ∧ t.segs = { s.segs with cs := stackWord s 2#16 }
      ∧ t.flags = (stackWord s 4#16 &&& 0x0FD5#16) ||| s.cfg.flagsFixedOne := by
  have hone := popped_one s
  have htwo : Popped s 4#16 s.drop.drop := hone.drop
  have hthree : Popped s 6#16 s.drop.drop.drop := htwo.drop
  rw [← top_eq, ← hone.top, ← htwo.top, ← hthree.core.outside.cfg]
  exact ⟨_, rfl, hthree.core.transfer _ _ _, (hthree.stores.transfer _ _ _).sameMem, hthree.sp, rfl,
    hthree.sameControl.setCsIp_segs _ s.top, rfl⟩

/-- Settles O27: the entries are those of R490, INTO's by its OF; IRET is three pops and a far transfer with FLAGS. -/
theorem interruptInstructions : Obligations.InterruptInstructions := by
  unfold Obligations.InterruptInstructions
  refine ⟨fun s n => ?_, iret_answers⟩
  have hnone := onlyRecords_refl s
  exact ⟨hnone.enters rfl, hnone.enters rfl, into_answers s⟩

end Sys2Proof.Machine

namespace Sys2Proof.Machine

/-! ## The flag instructions, LAHF and SAHF (O29) -/

/-- FLAGS is written after some reads, and the instruction falls through: registers and memory are unchanged. -/
theorem OnlyRecords.setFlags_frame {s u : State} (h : OnlyRecords s u) (i : Instr) (fl : Word) :
    Plain i s ((u.setFlags fl).advance i) ∧ SameRegsBut [] s ((u.setFlags fl).advance i)
      ∧ SameMem s ((u.setFlags fl).advance i) := by
  obtain ⟨l, rfl⟩ := h
  have hdata : Untouched s (((s.record l).setFlags fl).advance i) := by constructor <;> rfl
  exact ⟨plain_flags s i l fl, hdata.sameRegs [], hdata.sameMem⟩

/-- A write of one flag keeps every other bit of FLAGS. -/
theorem flagPut_kept (fl : Word) (f : Flag) (b : Bool) : KeptFlags [f] fl (flagPut fl f b) :=
  (KeptFlags.rfl' _ _).put (List.mem_singleton_self f) b

theorem flagGet_flagPut_self (fl : Word) (f : Flag) (b : Bool) : flagGet (flagPut fl f b) f = b := by
  rw [flagGet_flagPut, if_pos rfl]

/-- An instruction that writes one flag (R440-R445). -/
theorem setFlag_answers {s : State} {i : Instr} {f : Flag} {b : Bool} (hx : exec i s = .next ((s.setFlag f b).advance i)) :
    Answers i s fun t => Plain i s t ∧ SameRegsBut [] s t ∧ SameMem s t ∧ KeptFlags [f] s.flags t.flags
      ∧ flagGet t.flags f = b := by
  obtain ⟨hplain, hregs, hmem⟩ := (onlyRecords_refl s).setFlags_frame i (flagPut s.flags f b)
  exact ⟨_, hx, hplain, hregs, hmem, flagPut_kept _ f b, flagGet_flagPut_self _ f b⟩

/-- `INT_SHADOW` has two values, so a machine with an interrupt shadow is one where it is `SsAndSti` (R51). -/
theorem intShadow_ne_none_iff (x : IntShadow) : x ≠ .none ↔ x = .ssAndSti := by
  cases x <;> decide

/-- STI (R446). -/
theorem sti_answers (s : State) :
    Answers .sti s fun t => SameOutside s t ∧ t.halted = s.halted ∧ t.cur = s.cur ∧ t.faults = s.faults ∧ t.segs = s.segs
      ∧ t.ip = s.ipNext .sti ∧ SameRegsBut [] s t ∧ SameMem s t ∧ KeptFlags [.if_] s.flags t.flags
      ∧ flagGet t.flags .if_ = true ∧ t.shadow = (s.shadow || decide (s.cfg.intShadow = .ssAndSti)) := by
  have hflags : (((s.setFlag .if_ true).setShadow).advance .sti).flags = flagPut s.flags .if_ true := by simp [State.setFlag]
  have hshadow : (((s.setFlag .if_ true).setShadow).advance .sti).shadow
      = (s.shadow || decide (s.cfg.intShadow ≠ .none)) := setShadow_shadow (s.setFlag .if_ true)
  refine ⟨_, rfl, by constructor <;> simp, by simp, by simp, by simp, by simp, by simp, fun r _ => by simp,
    SameStores.sameMem (by constructor <;> simp), ?_, ?_, ?_⟩
  · exact hflags ▸ flagPut_kept s.flags .if_ true
  · exact hflags ▸ flagGet_flagPut_self s.flags .if_ true
  · rw [hshadow, decide_eq_decide.mpr (intShadow_ne_none_iff _)]

/-- LAHF (R223). -/
theorem lahf_answers (s : State) :
    Answers .lahf s fun t => Plain .lahf s t ∧ t.flags = s.flags ∧ SameMem s t ∧ SetByteReg s t .ah (s.flags.setWidth 8) := by
  have hlow : loByte s.flags = s.flags.setWidth 8 := (BitVec.setWidth_eq_extractLsb' (by omega)).symm
  obtain ⟨hplain, hmem, hset⟩ := plain_setReg8 (i := .lahf) (onlyRecords_refl s) .ah (s.flags.setWidth 8) s.flags
  exact ⟨_, hlow ▸ rfl, hplain, rfl, hmem, hset⟩

/-- SAHF writes the five low flags and no other bit of FLAGS (R224). -/
theorem sahfFlags_spec (ah : Byte) (fl : Word) :
    KeptFlags [.sf, .zf, .af, .pf, .cf] fl (sahfFlags ah fl)
      ∧ flagGet (sahfFlags ah fl) .sf = ah.getLsbD 7 ∧ flagGet (sahfFlags ah fl) .zf = ah.getLsbD 6
      ∧ flagGet (sahfFlags ah fl) .af = ah.getLsbD 4 ∧ flagGet (sahfFlags ah fl) .pf = ah.getLsbD 2
      ∧ flagGet (sahfFlags ah fl) .cf = ah.getLsbD 0 := by
  refine ⟨?_, by simp [sahfFlags]⟩
  exact (((((KeptFlags.rfl' _ _).put (by decide) _).put (by decide) _).put (by decide) _).put (by decide) _).put (by decide) _

/-- SAHF reads AH and writes FLAGS (R224). -/
theorem sahf_answers (s : State) :
    Answers .sahf s fun t => Plain .sahf s t ∧ SameMem s t ∧ SameRegsBut [] s t
      ∧ KeptFlags [.sf, .zf, .af, .pf, .cf] s.flags t.flags
      ∧ flagGet t.flags .sf = (s.reg8 .ah).getLsbD 7 ∧ flagGet t.flags .zf = (s.reg8 .ah).getLsbD 6
      ∧ flagGet t.flags .af = (s.reg8 .ah).getLsbD 4 ∧ flagGet t.flags .pf = (s.reg8 .ah).getLsbD 2
      ∧ flagGet t.flags .cf = (s.reg8 .ah).getLsbD 0 := by
  obtain ⟨hplain, hregs, hmem⟩ := (onlyRecords_note8 s .ah).setFlags_frame .sahf (sahfFlags (s.reg8 .ah) s.flags)
  exact ⟨_, rfl, hplain, hmem, hregs, sahfFlags_spec _ _⟩

/-- Settles O29: six instructions are a write of one flag, STI one with the interrupt shadow; SAHF is five flag writes. -/
theorem flagInstructions : Obligations.FlagInstructions := by
  unfold Obligations.FlagInstructions
  constructor
  · intro s
    exact ⟨setFlag_answers rfl, setFlag_answers rfl, setFlag_answers rfl, setFlag_answers rfl, setFlag_answers rfl,
      setFlag_answers rfl, sti_answers s⟩
  · intro s
    exact ⟨lahf_answers s, sahf_answers s⟩

end Sys2Proof.Machine

namespace Sys2Proof.Machine

/-! ## The instruction boundary: the cases of the CPU step (R470-R478) -/

section Boundary

variable {s : State}

/-- The running CPU executes (R470). -/
theorem stepNoInterrupt_running (hr : s.halted = false) : s.stepNoInterrupt = s.runInstr := by
  simp [State.stepNoInterrupt, hr]

/-- A source wakes the halted CPU, which executes (R478). -/
theorem stepNoInterrupt_woken (hr : s.halted = true) (hw : s.cfg.haltWakeIgnoresIf = true ∧ s.highestPending ≠ none) :
    s.stepNoInterrupt = (s.setHalted false).runInstr := by
  simp [State.stepNoInterrupt, hr, hw]

/-- The halted CPU stays halted (R477). -/
theorem stepNoInterrupt_halted (hr : s.halted = true) (hw : ¬(s.cfg.haltWakeIgnoresIf = true ∧ s.highestPending ≠ none)) :
    s.stepNoInterrupt = .next (s, none) := by
  rw [State.stepNoInterrupt, if_pos hr, if_neg hw]

/-- A source is taken at the boundary (R471, R476). -/
theorem cpuStep_accept {k : Nat} (hif : s.flag .if_ = true) (hsh : s.shadow = false) (hk : s.highestPending = some k) :
    s.cpuStep = .next (s.acceptInterrupt k, some s.ext.intEntryCycles) := by
  rw [State.cpuStep, if_pos ⟨hif, hsh⟩, hk]

/-- No source is taken at the boundary (R471). -/
theorem cpuStep_quiet (hq : s.flag .if_ = true → s.shadow = false → s.highestPending = none) :
    s.cpuStep = s.stepNoInterrupt := by
  unfold State.cpuStep
  split
  next h => rw [hq h.1 h.2]
  next => rfl

end Boundary

end Sys2Proof.Machine

namespace Sys2Proof.Machine

/-! ## The host part of a state along a step (O34) -/

/-- What a step may do to the host part: it keeps the mode, appends samples where the host has not muted, and appends to the
trace in trace mode alone (R586, R594). -/
structure HostPart.Leads (h k : HostPart) : Prop where
  mode : k.mode = h.mode
  samples : h.mode ≠ .normal → k.samples = h.samples
  trace : h.mode ≠ .trace → k.trace = h.trace

theorem HostPart.Leads.refl (h : HostPart) : h.Leads h := ⟨rfl, fun _ => rfl, fun _ => rfl⟩

theorem HostPart.Leads.trans {h k l : HostPart} (hk : h.Leads k) (kl : k.Leads l) : h.Leads l :=
  ⟨kl.mode.trans hk.mode, fun hm => (kl.samples (hk.mode ▸ hm)).trans (hk.samples hm),
    fun hm => (kl.trace (hk.mode ▸ hm)).trans (hk.trace hm)⟩

/-- The state `v` is `u` with a host part that `h` leads to. -/
def HostApart (h : HostPart) (u v : State) : Prop := ∃ k, h.Leads k ∧ v = u.withHost k

theorem hostApart_withHost (h : HostPart) (u : State) : HostApart h u (u.withHost h) := ⟨h, .refl h, rfl⟩

/-- A loop's body that does the same whatever the host part is, done once more. -/
theorem HostApart.bind {h : HostPart} {u v : State} {f g : State → State} (huv : HostApart h u v)
    (hf : ∀ k, HostApart k (f u) (g (u.withHost k))) : HostApart h (f u) (g v) := by
  obtain ⟨k, hk, rfl⟩ := huv
  obtain ⟨l, hl, hg⟩ := hf k
  exact ⟨l, hk.trans hl, hg⟩

/-! ### The devices -/

theorem withHost_ite (c : Prop) {d : Decidable c} (a b : State) (h : HostPart) :
    (if c then a else b).withHost h = if c then a.withHost h else b.withHost h := apply_ite (State.withHost · h) c a b

@[simp] theorem withHost_acknowledge (s : State) (h : HostPart) (k : Nat) :
    (s.withHost h).acknowledge k = (s.acknowledge k).withHost h := rfl

@[simp] theorem withHost_composeLine (s : State) (h : HostPart) : (s.withHost h).composeLine = s.composeLine.withHost h := rfl

@[simp] theorem withHost_dotStart (s : State) (h : HostPart) : (s.withHost h).dotStart = s.dotStart.withHost h := by
  unfold State.dotStart
  simp only [withHost_ite]
  rfl

@[simp] theorem withHost_ppuNextLine (s : State) (h : HostPart) :
    (s.withHost h).ppuNextLine = s.ppuNextLine.withHost h := by
  unfold State.ppuNextLine
  simp only [withHost_ite]
  rfl

@[simp] theorem withHost_ppuDot (s : State) (h : HostPart) : (s.withHost h).ppuDot = s.ppuDot.withHost h := by
  have hline (t : State) (m : Nat) : ((if t.ppu.line < m then t.composeLine else t).ppuNextLine).withHost h
      = (if t.ppu.line < m then (t.withHost h).composeLine else t.withHost h).ppuNextLine := by
    rw [← withHost_ppuNextLine, withHost_ite, withHost_composeLine]
  simp only [ppuDot_eq, withHost_ite, hline, withHost_dotStart]
  rfl

@[simp] theorem withHost_timerTick (s : State) (h : HostPart) (k : Nat) (u : TimerUnit) :
    (s.withHost h).timerTick k u = (s.timerTick k u).withHost h := by
  unfold State.timerTick
  simp only [withHost_ite]
  rfl

/-- An APU tick: a sample is appended where the host has not muted, and the channels are the same (R586). -/
theorem withHost_apuTick (s : State) (h : HostPart) : HostApart h s.apuTick (s.withHost h).apuTick := by
  refine ⟨{ h with samples := (s.withHost h).apuTick.samples }, ⟨rfl, fun hm => ?_, fun _ => rfl⟩, rfl⟩
  have hmuted : (s.withHost h).muted = true := by
    cases hmode : h.mode <;> simp_all [State.muted, State.withHost]
  simp only [State.apuTick, hmuted]
  rfl

theorem withHost_ppuDots (s : State) (h : HostPart) (n : Nat) : (s.withHost h).ppuDots n = (s.ppuDots n).withHost h := by
  induction n generalizing s with
  | zero => rfl
  | succ n ih => simp only [State.ppuDots, withHost_ppuDot, ih]

theorem withHost_timerTicksFrom (s : State) (h : HostPart) (k : Nat) (us : List TimerUnit) :
    (s.withHost h).timerTicksFrom k us = (s.timerTicksFrom k us).withHost h := by
  induction us generalizing s k with
  | nil => rfl
  | cons u us ih => simp only [State.timerTicksFrom, withHost_timerTick, ih]

theorem withHost_timerTicks (s : State) (h : HostPart) (n : Nat) :
    (s.withHost h).timerTicks n = (s.timerTicks n).withHost h := by
  induction n generalizing s with
  | zero => rfl
  | succ n ih => simp only [State.timerTicks, State.timerTickAll, withHost_ext, withHost_timerTicksFrom, ih]

theorem withHost_apuTicks (s : State) (h : HostPart) (n : Nat) : HostApart h (s.apuTicks n) ((s.withHost h).apuTicks n) := by
  induction n generalizing s h with
  | zero => exact hostApart_withHost h s
  | succ n ih =>
    exact (withHost_apuTick s h).bind (f := (State.apuTicks · n)) (g := (State.apuTicks · n)) fun k => ih s.apuTick k

/-- The advance of the devices: the samples of the host part are all it can change (R620). -/
theorem withHost_advanceDevices (s : State) (h : HostPart) (e : Nat) :
    HostApart h (s.advanceDevices e) ((s.withHost h).advanceDevices e) := by
  obtain ⟨k, hk, ha⟩ := withHost_apuTicks (s.ppuDots (convertCycles e s.ext.dotsPerCycle s.rem.ppu).1) h
    (convertCycles e s.ext.apuTicksPerCycle s.rem.apu).1
  refine ⟨{ h with samples := k.samples }, ⟨rfl, hk.samples, fun _ => rfl⟩, ?_⟩
  simp only [State.advanceDevices, withHost_ext, withHost_rem, withHost_ppuDots, ha, withHost_timerTicks]
  rfl

/-! ### The CPU step -/

/-- Two outcomes of a CPU step that differ in the host part of their next states alone. -/
inductive HostRelated (h : HostPart) : Stepped → Stepped → Prop
  | next {t u : State} (c : Option Nat) (htu : HostApart h t u) : HostRelated h (.next (t, c)) (.next (u, c))
  | fault (r : Fault) : HostRelated h (.fault r) (.fault r)
  | refused (r : Refusal) : HostRelated h (.refused r) (.refused r)

/-- The trace record of an instruction is appended to the trace of the host part, in trace mode alone (R594). -/
theorem withHost_traced (t s : State) (h : HostPart) (i : Instr) :
    HostApart h (t.traced s i) ((t.withHost h).traced (s.withHost h) i) := by
  have hself (k : HostPart) : (t.traced s i).withHost k = t.withHost k := by
    unfold State.traced
    split <;> rfl
  refine ⟨{ h with trace := ((t.withHost h).traced (s.withHost h) i).trace }, ⟨rfl, fun _ => rfl, fun hm => ?_⟩, ?_⟩
  · obtain ⟨mode, samples, trace⟩ := h
    cases mode with
    | normal | mute => rfl
    | trace => exact absurd rfl hm
  · rw [hself]
    obtain ⟨mode, samples, trace⟩ := h
    cases mode <;> rfl

theorem withHost_cycles (s : State) (h : HostPart) (i : Instr) : (s.withHost h).cycles i = s.cycles i := rfl

/-- The execution of one instruction with its prefixes, or of a gap. -/
theorem withHost_executeN (n : Nat) (s : State) (h : HostPart) :
    HostRelated h (executeN n s) (executeN n (s.withHost h)) := by
  induction n generalizing s with
  | zero => exact .fault _
  | succ n ih =>
    cases hf : s.fetch with
    | gap len =>
      rw [executeN_gap hf, executeN_gap (s := s.withHost h) hf, withHost_noteCode, withHost_gapStep]
      exact .next _ (hostApart_withHost h _)
    | instr i len =>
      obtain ⟨u, hx, -⟩ := exec_reaches i (s.noteCode len)
      have hxh : exec i ((s.withHost h).noteCode len) = .next (u.withHost h) := by
        rw [withHost_noteCode, exec_withHost, hx, mapNext_next]
      cases hp : i.isPrefix with
      | true =>
        rw [executeN_prefix hf hx hp, executeN_prefix (s := s.withHost h) hf hxh hp]
        exact ih u
      | false =>
        rw [executeN_instr hf hx hp, executeN_instr (s := s.withHost h) hf hxh hp, withHost_cycles]
        exact .next _ (withHost_traced u s h i)

theorem withHost_singleStep (s : State) (h : HostPart) (tf : Bool) (c : Option Nat) :
    (s.withHost h).singleStep tf c = ((s.singleStep tf c).1.withHost h, (s.singleStep tf c).2) := by
  unfold State.singleStep
  simp only [withHost_cfg, withHost_cur, withHost_ext, withHost_ip, withHost_enter]
  split <;> rfl

theorem withHost_runInstr (s : State) (h : HostPart) : HostRelated h s.runInstr (s.withHost h).runInstr := by
  have hx := withHost_executeN 65536 (started s) h
  have hfault {u : State} {r : Fault} (he : executeN 65536 (started u) = .fault r) : u.runInstr = .fault r := by
    rw [started] at he
    rw [State.runInstr, State.execute, he]
  have hrefused {u : State} {r : Refusal} (he : executeN 65536 (started u) = .refused r) : u.runInstr = .refused r := by
    rw [started] at he
    rw [State.runInstr, State.execute, he]
  generalize hs : executeN 65536 (started s) = o at hx
  generalize ht : executeN 65536 ((started s).withHost h) = p at hx
  cases hx with
  | fault r => rw [hfault hs, hfault (u := s.withHost h) ht]; exact .fault r
  | refused r => rw [hrefused hs, hrefused (u := s.withHost h) ht]; exact .refused r
  | next c htu =>
    obtain ⟨k, hk, rfl⟩ := htu
    rw [runInstr_of_execute hs, runInstr_of_execute (s := s.withHost h) ht, withHost_flag, withHost_singleStep]
    exact .next _ ⟨k, hk, rfl⟩

theorem withHost_stepNoInterrupt (s : State) (h : HostPart) :
    HostRelated h s.stepNoInterrupt (s.withHost h).stepNoInterrupt := by
  cases hr : s.halted with
  | false =>
    rw [stepNoInterrupt_running hr, stepNoInterrupt_running (s := s.withHost h) hr]
    exact withHost_runInstr s h
  | true =>
    by_cases hw : s.cfg.haltWakeIgnoresIf = true ∧ s.highestPending ≠ none
    · rw [stepNoInterrupt_woken hr hw, stepNoInterrupt_woken (s := s.withHost h) hr hw]
      exact withHost_runInstr (s.setHalted false) h
    · rw [stepNoInterrupt_halted hr hw, stepNoInterrupt_halted (s := s.withHost h) hr hw]
      exact .next none (hostApart_withHost h s)

theorem withHost_acceptInterrupt (s : State) (h : HostPart) (k : Nat) :
    (s.withHost h).acceptInterrupt k = (s.acceptInterrupt k).withHost h := by
  simp only [State.acceptInterrupt, withHost_acknowledge, withHost_setHalted, withHost_ip, withHost_enter]
  rfl

theorem withHost_cpuStep (s : State) (h : HostPart) : HostRelated h s.cpuStep (s.withHost h).cpuStep := by
  by_cases hq : s.flag .if_ = true ∧ s.shadow = false ∧ s.highestPending ≠ none
  · obtain ⟨hif, hsh, hp⟩ := hq
    obtain ⟨k, hk⟩ := Option.ne_none_iff_exists'.mp hp
    rw [cpuStep_accept hif hsh hk, cpuStep_accept (s := s.withHost h) hif hsh hk, withHost_acceptInterrupt]
    exact .next _ (hostApart_withHost h _)
  · have hq : s.flag .if_ = true → s.shadow = false → s.highestPending = none := by simpa using hq
    rw [cpuStep_quiet hq, cpuStep_quiet (s := s.withHost h) hq]
    exact withHost_stepNoInterrupt s h

/-- What follows the CPU step in a scheduler step, whatever the host part is. -/
theorem HostApart.schedule {h : HostPart} {t u : State} (htu : HostApart h t u) (c : Option Nat) :
    HostApart h (t.advanceDevices (t.deviceCycles c)).endStep (u.advanceDevices (u.deviceCycles c)).endStep :=
  htu.bind (f := fun t => (t.advanceDevices (t.deviceCycles c)).endStep)
    (g := fun t => (t.advanceDevices (t.deviceCycles c)).endStep) fun k =>
      (withHost_advanceDevices t k _).bind (f := State.endStep) (g := State.endStep) fun l => hostApart_withHost l _

/-- A scheduler step does the same whatever the host part is, and changes of it what `HostPart.Leads` says alone. -/
theorem withHost_step (s : State) (h : HostPart) :
    match step s with
    | .next u => ∃ k, h.Leads k ∧ step (s.withHost h) = .next (u.withHost k)
    | .fault r => step (s.withHost h) = .fault r
    | .refused r => step (s.withHost h) = .refused r := by
  have hc := withHost_cpuStep s h
  unfold step State.schedStep
  generalize s.cpuStep = o at hc
  generalize (s.withHost h).cpuStep = p at hc
  cases hc with
  | fault r => rfl
  | refused r => rfl
  | next c htu =>
    obtain ⟨k, hk, hv⟩ := htu.schedule c
    exact ⟨k, hk, congrArg _ hv⟩

/-- Settles O34: the step with another host part answers the same but for the host part, and this part follows the mode. -/
theorem hostModesChangeNothing : Obligations.HostModesChangeNothing := by
  unfold Obligations.HostModesChangeNothing
  intro s m samples trace
  have h := withHost_step s ⟨m, samples, trace⟩
  cases hs : step s with
  | fault r => rw [hs] at h; exact h
  | refused r => rw [hs] at h; exact h
  | next u =>
    rw [hs] at h
    obtain ⟨k, ⟨hmode, hsamples, htrace⟩, hv⟩ := h
    refine ⟨u.withHost k, hv, ?_, hsamples, htrace⟩
    obtain rfl : k.mode = m := hmode
    rfl

end Sys2Proof.Machine

namespace Sys2Proof.Machine

/-! ## Acceptance, the halted step and the single-step trap (O51, O52, O53) -/

/-- An entry from a state is one from that state with another `halted`: an entry clears it (R490). -/
theorem Entered.of_setHalted {s t : State} {b : Bool} {n : Byte} {ret : Word} (h : Entered (s.setHalted b) n ret t) :
    Entered s n ret t := by
  have hstores : SameStores s (s.setHalted b) := by constructor <;> rfl
  have hmem := (hstores.storesDown s.segs.ss (s.reg16 .sp) [s.flags, s.segs.cs, ret]).sameMem
  exact { h with outside := { h.outside with }, mem := hmem.trans h.mem }

/-- An accepted source is acknowledged, and its vector entered with IP as the return address (R476). -/
theorem acceptInterrupt_entered (s : State) (k : Nat) :
    Entered (s.acknowledge k) (s.ext.vectorOf.getD k 0#8) s.ip (s.acceptInterrupt k) :=
  (enter_entered (onlyRecords_refl ((s.acknowledge k).setHalted false)) _ _).of_setHalted

@[simp] theorem deviceCycles_some (s : State) (n : Nat) : s.deviceCycles (some n) = n := rfl

@[simp] theorem deviceCycles_none (s : State) : s.deviceCycles none = s.ext.haltQuantum := rfl

/-- Settles O51: the boundary's first case, and the scheduler step around it. -/
theorem interruptAcceptance : Obligations.InterruptAcceptance := by
  unfold Obligations.InterruptAcceptance
  intro s k hif hsh hk
  have hc := cpuStep_accept hif hsh hk
  exact ⟨_, hc, acceptInterrupt_entered s k, by rw [step_of_cpuStep hc, deviceCycles_some]⟩

/-! ### The devices and the enable mask -/

theorem dotStart_enable (s : State) : s.dotStart.ic.enable = s.ic.enable := by
  unfold State.dotStart
  simp only []
  split <;> rfl

theorem ppuNextLine_enable (s : State) : s.ppuNextLine.ic.enable = s.ic.enable := by
  unfold State.ppuNextLine
  simp only []
  split_ifs <;> rfl

theorem ppuDot_enable (s : State) : s.ppuDot.ic.enable = s.ic.enable := by
  rw [ppuDot_eq]
  split_ifs
  · exact (ppuNextLine_enable s.dotStart.composeLine).trans (dotStart_enable s)
  · exact (ppuNextLine_enable s.dotStart).trans (dotStart_enable s)
  · exact dotStart_enable s

theorem timerTick_enable (s : State) (k : Nat) (u : TimerUnit) : (s.timerTick k u).ic.enable = s.ic.enable := by
  unfold State.timerTick
  simp only []
  split <;> rfl

theorem ppuDots_enable (s : State) (n : Nat) : (s.ppuDots n).ic.enable = s.ic.enable := by
  induction n generalizing s with
  | zero => rfl
  | succ n ih => exact (ih s.ppuDot).trans (ppuDot_enable s)

theorem apuTicks_enable (s : State) (n : Nat) : (s.apuTicks n).ic.enable = s.ic.enable := by
  induction n generalizing s with
  | zero => rfl
  | succ n ih => exact ih s.apuTick

theorem timerTicksFrom_enable (s : State) (k : Nat) (us : List TimerUnit) :
    (s.timerTicksFrom k us).ic.enable = s.ic.enable := by
  induction us generalizing s k with
  | nil => rfl
  | cons u us ih => exact (ih _ _).trans (timerTick_enable s k u)

theorem timerTicks_enable (s : State) (n : Nat) : (s.timerTicks n).ic.enable = s.ic.enable := by
  induction n generalizing s with
  | zero => rfl
  | succ n ih => exact (ih _).trans (timerTicksFrom_enable s 0 _)

/-- The devices raise sources and never write the enable mask (R522). -/
theorem advanceDevices_enable (s : State) (e : Nat) : (s.advanceDevices e).ic.enable = s.ic.enable :=
  (timerTicks_enable _ _).trans ((apuTicks_enable _ _).trans (ppuDots_enable s _))

/-- The advance of the devices leaves what a halted step leaves alone (R30, R477). -/
theorem advanceDevices_sameCpu (s : State) (e : Nat) : SameCpu s (s.advanceDevices e).endStep := by
  constructor <;> rfl

/-- A source that no enable bit lets through is not answered (R524). -/
theorem highestPending_of_enable_zero {s : State} (h : s.ic.enable = 0#8) : s.highestPending = none := by
  rw [State.highestPending, h, BitVec.and_zero, if_pos rfl]

/-- The halted step: no source is taken, and none wakes the CPU (R477). -/
theorem step_of_halted {s : State} (hr : s.halted = true)
    (hq : s.flag .if_ = true → s.shadow = false → s.highestPending = none)
    (hw : s.cfg.haltWakeIgnoresIf = true → s.highestPending = none) :
    step s = .next (s.advanceDevices s.ext.haltQuantum).endStep := by
  have hc : s.cpuStep = .next (s, none) := (cpuStep_quiet hq).trans (stepNoInterrupt_halted hr fun h => h.2 (hw h.1))
  rw [step_of_cpuStep hc, deviceCycles_none]

/-- Settles O52: the halted step is the advance of the devices; a woken CPU executes as a running one does. -/
theorem haltAndWake : Obligations.HaltAndWake := by
  unfold Obligations.HaltAndWake
  refine ⟨fun s _ hr => ⟨fun hq hw => ?_, fun hif hw => ?_⟩, fun s hr hif hc hp => ?_⟩
  · exact ⟨_, step_of_halted hr hq hw, rfl, advanceDevices_sameCpu s _, rfl, advanceDevices_enable s _⟩
  · have hwake : s.cfg.haltWakeIgnoresIf = true → s.highestPending = none := fun hc =>
      highestPending_of_enable_zero (hw.resolve_left (by simp [hc]))
    have hquiet : s.flag .if_ = true → s.shadow = false → s.highestPending = none := fun h => by simp [hif] at h
    exact ⟨_, step_of_halted hr hquiet hwake, rfl, advanceDevices_sameCpu s _, advanceDevices_enable s _⟩
  · have hquiet : s.flag .if_ = true → s.shadow = false → s.highestPending = none := fun h => by simp [hif] at h
    have hwoken : s.cpuStep = (s.setHalted false).runInstr := (cpuStep_quiet hquiet).trans (stepNoInterrupt_woken hr ⟨hc, hp⟩)
    have hrunning : (s.setHalted false).cpuStep = (s.setHalted false).runInstr :=
      (cpuStep_quiet (s := s.setHalted false) hquiet).trans (stepNoInterrupt_running rfl)
    exact ⟨hwoken.trans hrunning.symm, hwoken⟩

theorem singleStep_taken {t : State} {tf : Bool} (h : t.cfg.singleStep = true ∧ tf = true ∧ t.cur.entered = false) (c : Nat) :
    t.singleStep tf (some c) = (t.enter 1#8 t.ip, some (c + t.ext.intEntryCycles)) := if_pos h

theorem singleStep_not_taken {t : State} {tf : Bool} (h : ¬(t.cfg.singleStep = true ∧ tf = true ∧ t.cur.entered = false))
    (c : Option Nat) : t.singleStep tf c = (t, c) := if_neg h

/-- Settles O53: the execution step is the execution and then, under the trap's condition, the entry of vector 1. -/
theorem singleStepTrap : Obligations.SingleStepTrap := by
  unfold Obligations.SingleStepTrap
  intro s t c hx
  have hrun := runInstr_of_execute hx
  split
  next htrap => exact ⟨_, hrun.trans (congrArg _ (singleStep_taken htrap c)), enter_entered (onlyRecords_refl t) 1#8 t.ip⟩
  next htrap => exact hrun.trans (congrArg _ (singleStep_not_taken htrap _))

end Sys2Proof.Machine

namespace Sys2Proof.Machine

/-! ## The interrupt controller (O49, O50) -/

/-! ### The source of the highest priority -/

theorem topSource_eq_none_iff {prio l : List Nat} : topSource prio l = none ↔ l = [] := by
  cases l with
  | nil => simp [topSource]
  | cons k ks =>
    cases h : topSource prio ks with
    | none => simp [topSource, h]
    | some j =>
      simp only [topSource, h]
      split <;> simp

theorem topSource_mem {prio l : List Nat} {k : Nat} (h : topSource prio l = some k) : k ∈ l := by
  induction l generalizing k with
  | nil => simp [topSource] at h
  | cons i is ih =>
    cases hi : topSource prio is with
    | none => simp_all [topSource]
    | some j =>
      have hj := ih hi
      simp only [topSource, hi] at h
      split at h <;> simp_all

/-- No source of the list has a higher priority than the one answered. -/
theorem topSource_le {prio l : List Nat} {k : Nat} (h : topSource prio l = some k) {j : Nat} (hj : j ∈ l) :
    prio.getD j 0 ≤ prio.getD k 0 := by
  induction l generalizing k with
  | nil => simp at hj
  | cons i is ih =>
    cases hi : topSource prio is with
    | none =>
      obtain rfl := topSource_eq_none_iff.mp hi
      obtain rfl : i = k := by simpa [topSource] using h
      obtain rfl : j = i := by simpa using hj
      exact Nat.le_refl _
    | some m =>
      simp only [topSource, hi] at h
      rcases List.mem_cons.mp hj with rfl | hj
      · split at h <;> cases h <;> omega
      · have := ih hi hj
        split at h <;> cases h <;> omega

/-- The pending and enabled sources, in rising order. -/
def waitingSources (s : State) : List Nat :=
  (List.range s.ext.nSources).filter fun k => (s.ic.pending &&& s.ic.enable).getLsbD k

theorem mem_waitingSources {s : State} {k : Nat} : k ∈ waitingSources s ↔
    k < s.ext.nSources ∧ s.ic.pending.getLsbD k = true ∧ s.ic.enable.getLsbD k = true := by
  simp [waitingSources]

theorem highestPending_eq (s : State) : s.highestPending = topSource s.ext.priority (waitingSources s) := by
  unfold State.highestPending
  split
  next h => simp [waitingSources, h, topSource]
  next => rfl

/-- Every source has a priority of its own (R528). -/
theorem OpenCfg.priority_ne {c : Cfg} {o : OpenCfg} (h : o.wf c = true) {j k : Nat} (hj : j < o.nSources)
    (hk : k < o.nSources) (hne : j ≠ k) : o.priority.getD j 0 ≠ o.priority.getD k 0 := by
  obtain ⟨hlen, hnodup⟩ : o.priority.length = o.nSources ∧ o.priority.Nodup := by
    simp only [OpenCfg.wf, Bool.and_eq_true, decide_eq_true_eq] at h
    simp only [h, and_self]
  rw [← hlen] at hj hk
  rw [List.getD_eq_getElem _ _ hj, List.getD_eq_getElem _ _ hk]
  exact fun he => hne ((hnodup.getElem_inj_iff).mp he)

/-- Settles O49: the answer is the top of the waiting sources, and two sources never have the same priority. -/
theorem topSourceIsTaken : Obligations.TopSourceIsTaken := by
  unfold Obligations.TopSourceIsTaken
  intro s hwf
  rw [highestPending_eq]
  constructor
  · rw [topSource_eq_none_iff, List.eq_nil_iff_forall_not_mem]
    exact forall_congr' fun k => by rw [mem_waitingSources, not_and]
  · intro k h
    obtain ⟨hk, hp, he⟩ := mem_waitingSources.mp (topSource_mem h)
    refine ⟨hk, hp, he, fun j hj hne hpj hej => ?_⟩
    exact Nat.lt_of_le_of_ne (topSource_le h (mem_waitingSources.mpr ⟨hj, hpj, hej⟩)) (OpenCfg.priority_ne hwf hj hk hne)

/-! ### The bits of the controller -/

theorem icMask_getLsbD {o : OpenCfg} {j : Nat} (hj : j < 8) : (icMask o).getLsbD j = decide (j < o.nSources) := by
  rw [icMask, BitVec.getLsbD_ofNat, Nat.testBit_two_pow_sub_one, decide_eq_true hj, Bool.true_and]

/-- The bit of a source that there is (R520). -/
theorem sourceBit_getLsbD {o : OpenCfg} {k j : Nat} (hk : k < o.nSources) (hj : j < 8) :
    (sourceBit o k).getLsbD j = decide (j = k) := by
  rw [sourceBit, BitVec.getLsbD_and, icMask_getLsbD hj, BitVec.getLsbD_shiftLeft]
  by_cases hjk : j = k
  · simp [hjk, hk, hjk ▸ hj]
  · have : j < k ∨ j - k ≠ 0 := by omega
    rcases this with h | h <;> simp [hjk, h]

theorem raiseSource_pending {s : State} {k j : Nat} (hk : k < s.ext.nSources) (hj : j < 8) :
    (s.raiseSource k).ic.pending.getLsbD j = (decide (j = k) || s.ic.pending.getLsbD j) := by
  have hraise : (s.raiseSource k).ic.pending = s.ic.pending ||| sourceBit s.ext k := rfl
  rw [hraise, BitVec.getLsbD_or, sourceBit_getLsbD hk hj, Bool.or_comm]

theorem raiseSource_raised {s : State} {k j : Nat} (hk : k < s.ext.nSources) (hj : j < 8) :
    (s.raiseSource k).raised.getLsbD j = (decide (j = k) || s.raised.getLsbD j) := by
  have hraise : (s.raiseSource k).raised = s.raised ||| sourceBit s.ext k := rfl
  rw [hraise, BitVec.getLsbD_or, sourceBit_getLsbD hk hj, Bool.or_comm]

/-- Raising a source again changes nothing (R522). -/
theorem raiseSource_idem (s : State) (k : Nat) : (s.raiseSource k).raiseSource k = s.raiseSource k := by
  have hbit (x : BitVec 8) : (x ||| sourceBit s.ext k) ||| sourceBit s.ext k = x ||| sourceBit s.ext k := by
    rw [BitVec.or_assoc, BitVec.or_self]
  have hext : (s.raiseSource k).ext = s.ext := rfl
  rw [State.raiseSource, hext]
  simp only [State.raiseSource, State.setIc, State.setRaised, hbit]

theorem acknowledge_pending {s : State} {k j : Nat} (hj : j < 8) :
    (s.acknowledge k).ic.pending.getLsbD j = (decide (j ≠ k) && s.ic.pending.getLsbD j) := by
  have hack : (s.acknowledge k).ic.pending = s.ic.pending &&& ~~~(1#8 <<< k) := rfl
  rw [hack, BitVec.getLsbD_and, BitVec.getLsbD_not, BitVec.getLsbD_shiftLeft]
  by_cases hjk : j = k
  · simp [hjk, hjk ▸ hj]
  · have : j < k ∨ j - k ≠ 0 := by omega
    rcases this with h | h <;> simp [hjk, hj, h]

/-- Settles O50: the bits of a raised and of an acknowledged source, and the two as updates of the fields they name. -/
theorem raiseAndAcknowledge : Obligations.RaiseAndAcknowledge := by
  unfold Obligations.RaiseAndAcknowledge
  intro s k j _ hk hj
  exact ⟨raiseSource_pending hk hj, raiseSource_idem s k, acknowledge_pending hj, raiseSource_raised hk hj, rfl, rfl⟩

end Sys2Proof.Machine

namespace Sys2Proof.Machine

/-! ## The timer units (O54) -/

/-- A unit with another count. -/
def Timer.setCount (t : Timer) (c : Word) : Timer := { t with count := c }

@[simp] theorem setCount_count (t : Timer) (c : Word) : (t.setCount c).count = c := rfl
@[simp] theorem setCount_en (t : Timer) (c : Word) : (t.setCount c).en = t.en := rfl
@[simp] theorem setCount_reload (t : Timer) (c : Word) : (t.setCount c).reload = t.reload := rfl
@[simp] theorem setCount_setCount (t : Timer) (c d : Word) : (t.setCount c).setCount d = t.setCount d := rfl
@[simp] theorem setCount_self (t : Timer) : t.setCount t.count = t := rfl

/-- The ticks before the one that underflows, of an enabled unit with the count `c` (R541). -/
def ticksBefore (fire : TimerFire) (c : Word) : Nat :=
  match fire with
  | .onBorrowFromZero => c.toNat
  | .onReachZero => c.toNat - 1

theorem ticksBefore_borrow (c : Word) : ticksBefore .onBorrowFromZero c = c.toNat := rfl

theorem ticksBefore_reach (c : Word) : ticksBefore .onReachZero c = c.toNat - 1 := rfl

theorem ticksBefore_sub {fire : TimerFire} {c : Word} {n : Nat} (hn : n ≤ ticksBefore fire c) :
    ticksBefore fire (c - BitVec.ofNat 16 n) = ticksBefore fire c - n := by
  have hle : n ≤ c.toNat := by
    cases fire with
    | onBorrowFromZero => exact hn
    | onReachZero => exact Nat.le_trans hn (Nat.sub_le ..)
  have hsub : (c - BitVec.ofNat 16 n).toNat = c.toNat - n := by bv_omega
  cases fire with
  | onBorrowFromZero => exact hsub
  | onReachZero => rw [ticksBefore_reach, ticksBefore_reach, hsub, Nat.sub_right_comm]

/-! ### One tick -/

theorem timerStep_disabled {t : Timer} (h : t.en = false) (fire : TimerFire) : timerStep fire t = (t, false) := by
  simp [timerStep, h]

/-- A tick that counts down (R541). -/
theorem timerStep_counts {fire : TimerFire} {t : Timer} (he : t.en = true) (h : 0 < ticksBefore fire t.count) :
    timerStep fire t = (t.setCount (t.count - 1#16), false) := by
  cases fire with
  | onBorrowFromZero =>
    rw [ticksBefore_borrow] at h
    have hc : t.count ≠ 0#16 := by bv_omega
    simp [timerStep, he, hc, Timer.setCount]
  | onReachZero =>
    rw [ticksBefore_reach] at h
    have hc : t.count ≠ 0#16 := by bv_omega
    have hd : t.count - 1#16 ≠ 0#16 := by bv_omega
    simp [timerStep, he, hc, hd, Timer.setCount]

/-- A tick that underflows, from the count 0 or, under OnReachZero, from 1 (R541). -/
theorem timerStep_fires {fire : TimerFire} {t : Timer} (he : t.en = true) (h : ticksBefore fire t.count = 0) :
    timerStep fire t = (timerUnderflow (t.setCount 0#16), true) := by
  have hself (hc : t.count = 0#16) : t.setCount 0#16 = t := by rw [← hc, setCount_self]
  cases fire with
  | onBorrowFromZero =>
    rw [ticksBefore_borrow] at h
    have hc : t.count = 0#16 := by bv_omega
    rw [hself hc]
    simp [timerStep, he, hc]
  | onReachZero =>
    rw [ticksBefore_reach] at h
    by_cases hc : t.count = 0#16
    · rw [hself hc]
      simp [timerStep, he, hc]
    · have hone : t.count = 1#16 := by bv_omega
      simp [timerStep, he, hone, Timer.setCount]

theorem timerUnderflow_auto {t : Timer} (h : t.auto = true) : timerUnderflow t = t.setCount t.reload := if_pos h

theorem timerUnderflow_once {t : Timer} (h : t.auto = false) : timerUnderflow t = { t with en := false } :=
  if_neg (by simp [h])

/-- A tick underflows in an enabled unit at the end of its count, and nowhere else (R541). -/
theorem timerStep_fires_iff (fire : TimerFire) (t : Timer) :
    (timerStep fire t).2 = true ↔ t.en = true ∧ ticksBefore fire t.count = 0 := by
  cases he : t.en with
  | false => simp [timerStep_disabled he]
  | true =>
    rcases Nat.eq_zero_or_pos (ticksBefore fire t.count) with h | h
    · simp [timerStep_fires he h, h]
    · simp [timerStep_counts he h, Nat.ne_of_gt h]

/-- The underflow of an auto-reloading unit. -/
theorem timerStep_reloads {fire : TimerFire} {t : Timer} (he : t.en = true) (ha : t.auto = true)
    (h : ticksBefore fire t.count = 0) : timerStep fire t = (t.setCount t.reload, true) := by
  rw [timerStep_fires he h, timerUnderflow_auto (t := t.setCount 0#16) ha, setCount_setCount, setCount_reload]

/-- The underflow of a one-shot unit. -/
theorem timerStep_stops {fire : TimerFire} {t : Timer} (he : t.en = true) (ha : t.auto = false)
    (h : ticksBefore fire t.count = 0) : timerStep fire t = ({ t with en := false, count := 0#16 }, true) := by
  rw [timerStep_fires he h, timerUnderflow_once (t := t.setCount 0#16) ha]
  rfl

/-! ### A period -/

theorem timerAfter_succ (fire : TimerFire) (n : Nat) (t : Timer) :
    timerAfter fire (n + 1) t = (timerStep fire (timerAfter fire n t)).1 := by
  induction n generalizing t with
  | zero => rfl
  | succ n ih => exact ih (timerStep fire t).1

section Period

variable {fire : TimerFire} {t : Timer} (he : t.en = true)

include he

/-- Up to the underflow the unit counts down. -/
theorem timerAfter_counts {n : Nat} (hn : n ≤ ticksBefore fire t.count) :
    timerAfter fire n t = t.setCount (t.count - BitVec.ofNat 16 n) := by
  induction n with
  | zero => rw [BitVec.sub_zero, setCount_self]; rfl
  | succ n ih =>
    have hleft : 0 < ticksBefore fire (t.count - BitVec.ofNat 16 n) := by
      rw [ticksBefore_sub (Nat.le_of_succ_le hn)]
      omega
    rw [timerAfter_succ, ih (Nat.le_of_succ_le hn), timerStep_counts (t := t.setCount (t.count - BitVec.ofNat 16 n)) he hleft,
      setCount_setCount, setCount_count, BitVec.sub_sub, BitVec.ofNat_add]

theorem firesAfter_counts {n : Nat} (hn : n ≤ ticksBefore fire t.count) :
    firesAfter fire n t = decide (n = ticksBefore fire t.count) := by
  rw [firesAfter, timerAfter_counts he hn, Bool.eq_iff_iff, timerStep_fires_iff, setCount_en, setCount_count,
    ticksBefore_sub hn, decide_eq_true_iff]
  simp only [he, true_and]
  omega

/-- The ticks of a period before the underflow. -/
theorem timer_in_period (hc : t.count = t.reload) {n : Nat} (hn : n ≤ ticksBefore fire t.reload) :
    timerAfter fire n t = t.setCount (t.reload - BitVec.ofNat 16 n)
      ∧ firesAfter fire n t = decide (n = ticksBefore fire t.reload) := by
  rw [← hc] at hn ⊢
  exact ⟨timerAfter_counts he hn, firesAfter_counts he hn⟩

/-- An auto-reloading unit that starts at its reload value is there again after the underflow (R541). -/
theorem timerAfter_period (ha : t.auto = true) (hc : t.count = t.reload) :
    timerAfter fire (ticksBefore fire t.reload + 1) t = t := by
  have hend : ticksBefore fire (t.count - BitVec.ofNat 16 (ticksBefore fire t.count)) = 0 := by
    rw [ticksBefore_sub (Nat.le_refl _), Nat.sub_self]
  rw [← hc, timerAfter_succ, timerAfter_counts he (Nat.le_refl _),
    timerStep_reloads (t := t.setCount (t.count - BitVec.ofNat 16 (ticksBefore fire t.count))) he ha hend,
    setCount_setCount, setCount_reload, ← hc, setCount_self]

end Period

/-- The ticks of a period under OnReachZero: as many as the reload value, and at least one (R541). -/
theorem max_one_reload (c : Word) : max 1 c.toNat = ticksBefore .onReachZero c + 1 := by
  rw [ticksBefore_reach]
  omega

/-! ### The tick of a place of the list -/

/-- What a tick of a unit does to the state (R541, R522): the unit's place, and its source where it underflows. -/
theorem timerTick_eq (s : State) (k : Nat) (u : TimerUnit) : s.timerTick k u = { s with
    timers := s.timers.set k (timerStep s.cfg.timerFire (s.timer k)).1
    ic := if (timerStep s.cfg.timerFire (s.timer k)).2 = true then (s.raiseSource u.src).ic else s.ic
    raised := if (timerStep s.cfg.timerFire (s.timer k)).2 = true then (s.raiseSource u.src).raised else s.raised } := by
  unfold State.timerTick
  simp only []
  split <;> rfl

theorem timerTick_timer_self (s : State) {k : Nat} (u : TimerUnit) (hk : k < s.timers.length) :
    (s.timerTick k u).timer k = (timerStep s.cfg.timerFire (s.timer k)).1 := by
  have hk : k < (s.timers.set k (timerStep s.cfg.timerFire (s.timer k)).1).length := by simpa using hk
  rw [timerTick_eq, State.timer, List.getD_eq_getElem _ _ hk, List.getElem_set_self]

theorem timerTick_timer_ne (s : State) {j k : Nat} (u : TimerUnit) (hj : j ≠ k) :
    (s.timerTick k u).timer j = s.timer j := by
  rw [timerTick_eq]
  simp only [State.timer, List.getD_eq_getElem?_getD, List.getElem?_set_ne hj.symm]

/-- Settles O54: a tick counts down or, at the end of the count, underflows, under both settings of TIMER_FIRE alike. -/
theorem timerTicks : Obligations.TimerTicks := by
  unfold Obligations.TimerTicks
  refine ⟨fun t n => ⟨fun f h => timerStep_disabled h f, fun he hc => ?_, fun he ha => ?_, fun he ha => ?_,
    fun he ha hc => ?_, fun f hf ha => ?_⟩, fun s k u hk => ?_⟩
  · refine ⟨timerStep_counts he ?_, fun h1 => timerStep_counts he ?_⟩
    · rw [ticksBefore_borrow]; bv_omega
    · rw [ticksBefore_reach]; bv_omega
  · refine ⟨fun hz => timerStep_reloads he ha (by rw [hz]; rfl), fun hz => timerStep_reloads he ha ?_⟩
    exact Nat.sub_eq_zero_of_le hz
  · refine ⟨fun hz => ?_, fun hz => timerStep_stops he ha (Nat.sub_eq_zero_of_le hz)⟩
    rw [timerStep_stops he ha (by rw [hz]; rfl), ← hz]
  · rw [max_one_reload]
    refine ⟨fun hn => timer_in_period he hc hn, timerAfter_period he ha hc, fun hn => ?_, timerAfter_period he ha hc⟩
    simp only [Nat.add_right_cancel_iff]
    exact timer_in_period he hc (Nat.le_of_lt_succ hn)
  · obtain ⟨he, h0⟩ := (timerStep_fires_iff f t).mp hf
    rw [timerStep_stops he ha h0]
  · exact ⟨timerTick_timer_self s u hk, fun j hj => timerTick_timer_ne s u hj, by rw [timerTick_eq], by rw [timerTick_eq],
      by rw [timerTick_eq]⟩

end Sys2Proof.Machine

namespace Sys2Proof.Machine

/-! ## The PPU (O55) -/

/-! ### Sources raised under a condition -/

/-- The controller and the record of raised sources of `t` are those of `s`, with the source `k` raised where `c` holds. -/
structure RaisedWhere (c : Prop) (k : Nat) (s t : State) : Prop where
  enable : t.ic.enable = s.ic.enable
  pending : ∀ j, j < 8 → (t.ic.pending.getLsbD j = true ↔ s.ic.pending.getLsbD j = true ∨ c ∧ j = k)
  raised : ∀ j, j < 8 → (t.raised.getLsbD j = true ↔ s.raised.getLsbD j = true ∨ c ∧ j = k)

theorem raisedWhere_raiseSource {c : Prop} (hc : c) {k : Nat} {s u : State} (hic : u.ic = s.ic) (hr : u.raised = s.raised)
    (hk : k < u.ext.nSources) : RaisedWhere c k s (u.raiseSource k) where
  enable := show u.ic.enable = s.ic.enable by rw [hic]
  pending j hj := by simp [raiseSource_pending hk hj, hic, hc, or_comm]
  raised j hj := by simp [raiseSource_raised hk hj, hr, hc, or_comm]

theorem raisedWhere_of_not {c : Prop} (hc : ¬c) {k : Nat} {s u : State} (hic : u.ic = s.ic) (hr : u.raised = s.raised) :
    RaisedWhere c k s u where
  enable := congrArg Ic.enable hic
  pending j _ := by simp [hic, hc]
  raised j _ := by simp [hr, hc]

/-- The state `t` is `s` with the PPU, the controller and the record of raised sources of `t`. -/
def PpuOnly (s t : State) : Prop := t = { s with ppu := t.ppu, ic := t.ic, raised := t.raised }

theorem PpuOnly.trans {s t u : State} (h : PpuOnly s t) (k : PpuOnly t u) : PpuOnly s u := by
  unfold PpuOnly at *
  rw [k, h]

theorem PpuOnly.ext_eq {s t : State} (h : PpuOnly s t) : t.ext = s.ext := by rw [h]

theorem PpuOnly.ram_eq {s t : State} (h : PpuOnly s t) : t.ram = s.ram := by rw [h]

/-! ### The first part of a dot -/

theorem dotStart_only (s : State) : PpuOnly s s.dotStart := by
  unfold State.dotStart
  simp only []
  split <;> rfl

/-- HBlank is raised on entering the dots after the visible ones of a visible line (R562). -/
theorem dotStart_raises (s : State) (hk : s.ext.hblankSrc < s.ext.nSources) :
    RaisedWhere (s.ppu.dot + 1 = s.ext.visibleDots ∧ s.ppu.line < s.ext.visibleLines) s.ext.hblankSrc s s.dotStart := by
  unfold State.dotStart
  simp only []
  split
  next h => exact raisedWhere_raiseSource h rfl rfl hk
  next h => exact raisedWhere_of_not h rfl rfl

/-! ### The end of a line -/

/-- The second part of a dot that ends a line: the row of a visible line is composed (R566). -/
def State.lineComposed (s : State) : State := if s.ppu.line < s.ext.visibleLines then s.composeLine else s

theorem lineComposed_only (s : State) : PpuOnly s s.lineComposed := by
  unfold State.lineComposed
  split <;> rfl

theorem lineComposed_ic (s : State) : s.lineComposed.ic = s.ic := by
  unfold State.lineComposed
  split <;> rfl

theorem lineComposed_raised (s : State) : s.lineComposed.raised = s.raised := by
  unfold State.lineComposed
  split <;> rfl

/-- The row of the line goes to the working buffer, and is the row composed last. -/
theorem lineComposed_ppu (s : State) : s.lineComposed.ppu = { s.ppu with
    fbWork := s.lineComposed.ppu.fbWork
    rowBuf := s.lineComposed.ppu.rowBuf } := by
  unfold State.lineComposed
  split <;> rfl

theorem ppuNextLine_only (s : State) : PpuOnly s s.ppuNextLine := by
  unfold State.ppuNextLine
  simp only []
  split_ifs <;> rfl

/-- VBlank is raised on entering the first line after the visible ones (R563). -/
theorem ppuNextLine_raises (s : State) (hk : s.ext.vblankSrc < s.ext.nSources) :
    RaisedWhere (s.ppu.line + 1 = s.ext.visibleLines) s.ext.vblankSrc s s.ppuNextLine := by
  unfold State.ppuNextLine
  simp only []
  split_ifs with h1 h2 h3
  · exact raisedWhere_raiseSource h1 rfl rfl hk
  all_goals exact raisedWhere_of_not h1 rfl rfl

/-- The PPU after the end of a line, its mode apart (R562-R567). -/
structure LineEnded (s t : State) : Prop where
  dot : t.ppu.dot = 0
  line : t.ppu.line = if s.ppu.line + 1 = s.ext.totalLines then 0 else s.ppu.line + 1
  pctl : t.ppu.pctl = s.ppu.pctl
  fbDone : t.ppu.fbDone = if s.ppu.line + 1 = s.ext.visibleLines then some s.ppu.fbWork else s.ppu.fbDone
  vblankEdge : t.ppu.vblankEdge = (decide (s.ppu.line + 1 = s.ext.visibleLines) || s.ppu.vblankEdge)

theorem ppuNextLine_ended {s : State} (h : s.ext.visibleLines < s.ext.totalLines) : LineEnded s s.ppuNextLine := by
  unfold State.ppuNextLine
  simp only []
  split_ifs with h1 h2 h3
  · constructor <;> simp [State.raiseSource, State.setIc, State.setRaised, State.setPpu, h1, h.ne]
  · constructor <;> simp [State.setPpu, h2, h.ne']
  · constructor <;> simp [State.setPpu, h1, h2]
  · constructor <;> simp [State.setPpu, h1, h2]

theorem ppuNextLine_fbWork (s : State) : s.ppuNextLine.ppu.fbWork = s.ppu.fbWork := by
  unfold State.ppuNextLine
  simp only []
  split_ifs <;> rfl

/-! ### A dot inside a line, and one that ends a line -/

section Dot

variable {s : State}

theorem ppuDot_inside (h : s.ppu.dot + 1 ≠ s.ext.lineDots) : s.ppuDot = s.dotStart := by
  rw [ppuDot_eq, if_neg (by rwa [dotStart_ppu])]

theorem ppuDot_lineEnd (h : s.ppu.dot + 1 = s.ext.lineDots) : s.ppuDot = s.dotStart.lineComposed.ppuNextLine := by
  rw [ppuDot_eq, if_pos (by rwa [dotStart_ppu]), State.lineComposed, dotStart_ext]

theorem ppuDot_only (s : State) : PpuOnly s s.ppuDot := by
  by_cases h : s.ppu.dot + 1 = s.ext.lineDots
  · rw [ppuDot_lineEnd h]
    exact ((dotStart_only s).trans (lineComposed_only _)).trans (ppuNextLine_only _)
  · rw [ppuDot_inside h]
    exact dotStart_only s

/-- The PPU when a line ends: the row is composed, and the line and the buffers are still those of the dot. -/
theorem lineComposed_dotStart (s : State) : s.dotStart.lineComposed.ext = s.ext
    ∧ s.dotStart.lineComposed.ppu.line = s.ppu.line ∧ s.dotStart.lineComposed.ppu.pctl = s.ppu.pctl
    ∧ s.dotStart.lineComposed.ppu.fbDone = s.ppu.fbDone ∧ s.dotStart.lineComposed.ppu.vblankEdge = s.ppu.vblankEdge := by
  have hext := ((dotStart_only s).trans (lineComposed_only _)).ext_eq
  rw [lineComposed_ppu, dotStart_ppu]
  exact ⟨hext, rfl, rfl, rfl, rfl⟩

/-- What the end of a line makes of the PPU, in terms of the state before the dot. -/
theorem ppuDot_ended (h : s.ppu.dot + 1 = s.ext.lineDots) (hl : s.ext.visibleLines < s.ext.totalLines) :
    s.ppuDot.ppu.dot = 0 ∧ s.ppuDot.ppu.line = (if s.ppu.line + 1 = s.ext.totalLines then 0 else s.ppu.line + 1)
      ∧ s.ppuDot.ppu.pctl = s.ppu.pctl
      ∧ s.ppuDot.ppu.fbDone = (if s.ppu.line + 1 = s.ext.visibleLines then some s.ppuDot.ppu.fbWork else s.ppu.fbDone)
      ∧ s.ppuDot.ppu.vblankEdge = (decide (s.ppu.line + 1 = s.ext.visibleLines) || s.ppu.vblankEdge) := by
  obtain ⟨hext, hline, hpctl, hdone, hedge⟩ := lineComposed_dotStart s
  have hend := ppuNextLine_ended (s := s.dotStart.lineComposed) (by rwa [hext])
  have hwork := ppuNextLine_fbWork s.dotStart.lineComposed
  rw [ppuDot_lineEnd h, hwork]
  exact ⟨hend.dot, by rw [hend.line, hline, hext], hend.pctl.trans hpctl, by rw [hend.fbDone, hline, hext, hdone],
    by rw [hend.vblankEdge, hline, hext, hedge]⟩

/-- The publication: where a dot ends the last visible line, and nowhere else (R563, R567). -/
theorem ppuDot_publishes (hl : s.ext.visibleLines < s.ext.totalLines) :
    s.ppuDot.ppu.pctl = s.ppu.pctl
      ∧ s.ppuDot.ppu.fbDone = (if s.ppu.dot + 1 = s.ext.lineDots ∧ s.ppu.line + 1 = s.ext.visibleLines then
          some s.ppuDot.ppu.fbWork else s.ppu.fbDone)
      ∧ s.ppuDot.ppu.vblankEdge
        = (decide (s.ppu.dot + 1 = s.ext.lineDots ∧ s.ppu.line + 1 = s.ext.visibleLines) || s.ppu.vblankEdge) := by
  by_cases h : s.ppu.dot + 1 = s.ext.lineDots
  · obtain ⟨-, -, hpctl, hdone, hedge⟩ := ppuDot_ended h hl
    simp only [h, true_and]
    exact ⟨hpctl, hdone, hedge⟩
  · simp only [h, false_and, if_false, decide_false, Bool.false_or, ppuDot_inside h, dotStart_ppu, and_self]

/-- A dot is one further in the frame (R565). -/
theorem ppuDot_framePosition (hb : OpenCfg.Bounds s.cfg s.ext) (hok : PpuOk s.ext s.ppu) :
    framePosition s.ext s.ppuDot.ppu = (framePosition s.ext s.ppu + 1) % (s.ext.totalLines * s.ext.lineDots) := by
  obtain ⟨hline, hdot, -⟩ := hok
  by_cases h : s.ppu.dot + 1 = s.ext.lineDots
  · obtain ⟨hdot', hline', -⟩ := ppuDot_ended h hb.totalLines
    have hold : framePosition s.ext s.ppu + 1 = (s.ppu.line + 1) * s.ext.lineDots := by
      rw [framePosition, Nat.succ_mul, ← h, Nat.add_assoc]
    rw [hold, framePosition, hdot', hline', Nat.add_zero]
    split
    next hlast => rw [hlast, Nat.mod_self, Nat.zero_mul]
    next hlast =>
      have hlt : s.ppu.line + 1 < s.ext.totalLines := Nat.lt_of_le_of_ne hline hlast
      exact (Nat.mod_eq_of_lt (Nat.mul_lt_mul_of_pos_right hlt (Nat.zero_lt_of_lt hdot))).symm
  · have hlt : framePosition s.ext s.ppu + 1 < s.ext.totalLines * s.ext.lineDots :=
      calc framePosition s.ext s.ppu + 1 < s.ppu.line * s.ext.lineDots + s.ext.lineDots := by rw [framePosition]; omega
        _ = (s.ppu.line + 1) * s.ext.lineDots := (Nat.succ_mul ..).symm
        _ ≤ s.ext.totalLines * s.ext.lineDots := Nat.mul_le_mul_right _ hline
    rw [Nat.mod_eq_of_lt hlt, ppuDot_inside h, framePosition, dotStart_ppu]
    rfl

/-- The sources a dot raises: HBlank in its first part, and VBlank where it ends the last visible line (R562, R563). -/
theorem ppuDot_raises (s : State) (hh : s.ext.hblankSrc < s.ext.nSources) (hv : s.ext.vblankSrc < s.ext.nSources) :
    RaisedWhere (s.ppu.dot + 1 = s.ext.visibleDots ∧ s.ppu.line < s.ext.visibleLines) s.ext.hblankSrc s s.dotStart
      ∧ RaisedWhere (s.ppu.dot + 1 = s.ext.lineDots ∧ s.ppu.line + 1 = s.ext.visibleLines) s.ext.vblankSrc s.dotStart
        s.ppuDot := by
  refine ⟨dotStart_raises s hh, ?_⟩
  by_cases h : s.ppu.dot + 1 = s.ext.lineDots
  · obtain ⟨hext, hline, -⟩ := lineComposed_dotStart s
    have hr := ppuNextLine_raises s.dotStart.lineComposed (by rwa [hext])
    rw [hline, hext, ← ppuDot_lineEnd h] at hr
    obtain ⟨henable, hpending, hraised⟩ := hr
    rw [lineComposed_ic] at henable hpending
    rw [lineComposed_raised] at hraised
    simp only [h, true_and]
    exact ⟨henable, hpending, hraised⟩
  · rw [ppuDot_inside h]
    exact raisedWhere_of_not (fun hc => h hc.1) rfl rfl

end Dot

/-! ### The row composed -/

theorem rowSprites_eq (o : OpenCfg) (ram : Memory) (y : Nat) : rowSprites o ram y = drawnSprites o ram y := rfl

/-- The pixel of the compositor is that of R566. -/
theorem pixelColor_eq (o : OpenCfg) (pctl : Byte) (ram : Memory) (y x : Nat) :
    pixelColor pctl ram (rowSprites o ram y) y x = pixelAt o pctl ram y x := by
  unfold pixelColor pixelAt
  simp only [spritePixel_eq, rowSprites_eq, bgEn, sprEn]
  by_cases hs : pctl.getLsbD 1 = true
  · simp only [hs, if_true]
    cases hf : (drawnSprites o ram y).find? fun i => Config.sprIndex ram i y x != 0 with
    | none => simp
    | some i =>
      have hne : Config.sprIndex ram i y x ≠ 0 := by simpa using List.find?_some hf
      simp [hne]
  · simp only [hs]
    rfl

theorem composeRow_getElem? (o : OpenCfg) (pctl : Byte) (ram : Memory) (y : Nat) {x : Nat} (hx : x < o.visibleDots) :
    (composeRow o pctl ram y)[x]? = some (pixelAt o pctl ram y x) := by
  simp [composeRow, hx, pixelColor_eq]

theorem composeRow_length (o : OpenCfg) (pctl : Byte) (ram : Memory) (y : Nat) :
    (composeRow o pctl ram y).length = o.visibleDots := by simp [composeRow]

theorem setRow_getElem?_self (fb : List (List Nat)) (y : Nat) (row : List Nat) : (setRow fb y row)[y]? = some row := by
  refine List.getElem?_set_self ?_
  simp only [List.length_append, List.length_replicate]
  omega

theorem setRow_getElem?_ne {fb : List (List Nat)} {y j : Nat} (row : List Nat) (hj : j < fb.length) (hne : j ≠ y) :
    (setRow fb y row)[j]? = fb[j]? := by
  rw [setRow, List.getElem?_set_ne hne.symm, List.getElem?_append_left hj]

/-- The working buffer changes where a visible line ends, by the row of the line (R566). -/
theorem ppuDot_fbWork (s : State) : s.ppuDot.ppu.fbWork =
    if s.ppu.dot + 1 = s.ext.lineDots ∧ s.ppu.line < s.ext.visibleLines then
      setRow s.ppu.fbWork s.ppu.line (composeRow s.ext s.ppu.pctl s.ram s.ppu.line)
    else s.ppu.fbWork := by
  have hp := dotStart_ppu s
  by_cases h : s.ppu.dot + 1 = s.ext.lineDots
  · rw [ppuDot_lineEnd h, ppuNextLine_fbWork, State.lineComposed, dotStart_ext, hp]
    simp only [h, true_and]
    split
    · simp only [State.composeLine, State.setPpu, dotStart_ext, (dotStart_only s).ram_eq, hp]
    · rw [hp]
  · rw [ppuDot_inside h, if_neg fun hc => h hc.1, hp]

/-- The PPU's two sources are sources (R520). -/
theorem OpenCfg.ppuSources_lt {c : Cfg} {o : OpenCfg} (h : o.wf c = true) :
    o.hblankSrc < o.nSources ∧ o.vblankSrc < o.nSources := by
  have hall : (o.hblankSrc :: o.vblankSrc :: o.timers.map (·.src)).all (fun k => decide (k < o.nSources)) = true := by
    simp only [OpenCfg.wf, Bool.and_eq_true] at h
    simp only [h]
  simp only [List.all_cons, Bool.and_eq_true, decide_eq_true_eq] at hall
  obtain ⟨hh, hv, -⟩ := hall
  exact ⟨hh, hv⟩

/-- Settles O55: a dot's first part, and the end of a line, where its place is the last one. -/
theorem ppuSequence : Obligations.PpuSequence := by
  unfold Obligations.PpuSequence
  refine ⟨fun s hwf hok => ?_, fun s => ⟨fun h => ?_, fun h => ?_⟩⟩
  · have hb := OpenCfg.bounds hwf
    obtain ⟨hh, hv⟩ := OpenCfg.ppuSources_lt hwf
    obtain ⟨hpctl, hdone, hedge⟩ := ppuDot_publishes hb.totalLines
    obtain ⟨hstart, hend⟩ := ppuDot_raises s hh hv
    refine ⟨ppuDot_ok hb hok, ppuDot_framePosition hb hok, fun j hj => ?_, hend.enable.trans hstart.enable, ?_, ?_, ?_,
      fun j hj => ?_, ppuDot_only s⟩
    · rw [Bool.eq_iff_iff, hend.pending j hj, hstart.pending j hj]
      simp only [Bool.or_eq_true, decide_eq_true_iff]
    · exact hpctl
    · exact fun hvb => ⟨by rw [hdone, if_pos hvb], by simp only [hedge, hvb, decide_true, Bool.true_or, and_self]⟩
    · exact fun hvb => ⟨by rw [hdone, if_neg hvb], by simp only [hedge, hvb, decide_false, Bool.false_or]⟩
    · rw [Bool.eq_iff_iff, hend.raised j hj, hstart.raised j hj]
      simp only [Bool.or_eq_true, decide_eq_true_iff]
  · refine ⟨_, ?_, composeRow_length .., fun x hx => composeRow_getElem? _ _ _ _ hx, fun j hj hne => ?_⟩
    · rw [ppuDot_fbWork, if_pos h, setRow_getElem?_self]
    · rw [ppuDot_fbWork, if_pos h, setRow_getElem?_ne _ hj hne]
  · rw [ppuDot_fbWork, if_neg h]

end Sys2Proof.Machine

namespace Sys2Proof.Machine

/-! ## The APU (O56) -/

theorem envRate_toNat (c : Channel) : (envRate c).toNat = c.envReg.toNat % 64 := by
  simp only [envRate, BitVec.toNat_setWidth, BitVec.extractLsb'_toNat, Nat.shiftRight_zero]
  omega

theorem envRate_eq_zero_iff (c : Channel) : envRate c = 0#8 ↔ c.envReg.toNat % 64 = 0 := by
  rw [← envRate_toNat, ← BitVec.toNat_inj]
  rfl

/-- The direction of the envelope, by the value of its field (R584). -/
theorem envDir_eq (c : Channel) : envDir c =
    if c.envReg.toNat / 64 = 1 then some true else if c.envReg.toNat / 64 = 2 then some false else none := by
  have hfield : (c.envReg.extractLsb' 6 2).toNat = c.envReg.toNat / 64 := by
    have := c.envReg.isLt
    simp only [BitVec.extractLsb'_toNat, Nat.shiftRight_eq_div_pow]
    omega
  have h1 : c.envReg.extractLsb' 6 2 = 1#2 ↔ c.envReg.toNat / 64 = 1 := by rw [← hfield, ← BitVec.toNat_inj]; rfl
  have h2 : c.envReg.extractLsb' 6 2 = 2#2 ↔ c.envReg.toNat / 64 = 2 := by rw [← hfield, ← BitVec.toNat_inj]; rfl
  simp only [envDir, h1, h2]

/-- The default step of the volume (R582). -/
theorem envStep_standard_toNat (v : BitVec 4) (up : Bool) :
    (envStep .standard v up).toNat = if up then min (v.toNat + 1) 15 else v.toNat - 1 := by
  cases up with
  | true =>
    by_cases h : v = 15#4
    · simp [envStep, h]
    · have : (v + 1#4).toNat = min (v.toNat + 1) 15 := by bv_omega
      simp [envStep, h, this]
  | false =>
    by_cases h : v = 0#4
    · simp [envStep, h]
    · have : (v - 1#4).toNat = v.toNat - 1 := by bv_omega
      simp [envStep, h, this]

/-! ### The envelope -/

section Envelope

variable {e : EnvelopeStep} {c : Channel}

/-- An envelope without a rate or a direction does nothing (R582). -/
theorem envelopeTick_still (h : c.envReg.toNat % 64 = 0 ∨ envDir c = none) : envelopeTick e c = c := by
  unfold envelopeTick
  split
  next => rfl
  next up hd =>
    rw [if_pos ((envRate_eq_zero_iff c).mpr (h.resolve_right (by simp [hd])))]

theorem envelopeTick_counts {up : Bool} (hr : c.envReg.toNat % 64 ≠ 0) (hd : envDir c = some up) (he : c.env ≠ 0#8) :
    envelopeTick e c = { c with env := c.env - 1#8 } := by
  have hr : envRate c ≠ 0#8 := fun h => hr ((envRate_eq_zero_iff c).mp h)
  simp [envelopeTick, hd, hr, he]

theorem envelopeTick_steps {up : Bool} (hr : c.envReg.toNat % 64 ≠ 0) (hd : envDir c = some up) (he : c.env = 0#8) :
    envelopeTick e c = { c with env := envRate c, vol := envStep e c.vol up } := by
  have hr : envRate c ≠ 0#8 := fun h => hr ((envRate_eq_zero_iff c).mp h)
  simp [envelopeTick, hd, hr, he]

/-- The envelope leaves everything but its counter and the volume. -/
theorem envelopeTick_eq (e : EnvelopeStep) (c : Channel) :
    envelopeTick e c = { c with env := (envelopeTick e c).env, vol := (envelopeTick e c).vol } := by
  unfold envelopeTick
  split
  · rfl
  · split_ifs <;> rfl

end Envelope

/-! ### The divider and the phase -/

/-- The divider and the phase after a tick (R581). -/
def dividerTick (k : ChannelKind) (c : Channel) : Channel :=
  if c.div = 0#16 then advancePhase k { c with div := c.period } else { c with div := c.div - 1#16 }

theorem channelTick_disabled {c : Channel} (h : c.ctrl.getLsbD 0 = false) (e : EnvelopeStep) (k : ChannelKind) :
    channelTick e k c = c := by
  have hc : chen c = false := h
  rw [channelTick, hc]
  rfl

theorem channelTick_enabled {c : Channel} (h : c.ctrl.getLsbD 0 = true) (e : EnvelopeStep) (k : ChannelKind) :
    channelTick e k c = envelopeTick e (dividerTick k c) := by
  have hc : chen c = true := h
  rw [channelTick, hc]
  rfl

/-- The divider leaves everything but itself and the phase. -/
theorem dividerTick_eq (k : ChannelKind) (c : Channel) :
    dividerTick k c = { c with div := (dividerTick k c).div, phase := (dividerTick k c).phase } := by
  unfold dividerTick
  split
  · cases k <;> rfl
  · rfl

theorem dividerTick_counts {c : Channel} (h : c.div ≠ 0#16) (k : ChannelKind) :
    dividerTick k c = { c with div := c.div - 1#16 } := if_neg h

theorem dividerTick_reloads {c : Channel} (h : c.div = 0#16) (k : ChannelKind) :
    dividerTick k c = advancePhase k { c with div := c.period } := if_pos h

theorem advancePhase_div (k : ChannelKind) (c : Channel) : (advancePhase k c).div = c.div := by
  cases k <;> rfl

/-- The phase that follows, of a channel's kind (R581). -/
theorem advancePhase_phase (k : ChannelKind) (c : Channel) :
    match k with
    | .square => (advancePhase k c).phase.toNat = (c.phase.toNat + 1) % 8
    | .noise => (advancePhase k c).phase = Config.lfsrStep c.phase
    | .pcm => (advancePhase k c).phase.toNat = c.data.toNat := by
  cases k with
  | square =>
    simp only [advancePhase, BitVec.toNat_ofNat]
    omega
  | noise => rfl
  | pcm =>
    have := c.data.isLt
    simp only [advancePhase, BitVec.toNat_setWidth]
    omega

/-! ### The tick of a channel and the mixer -/

/-- The clipped sum of the outputs is that of R583. -/
theorem mixSample_eq (o : OpenCfg) (us : List ChannelUnit) (cs : List Channel) : mixSample o us cs =
    max o.mixMin (min ((us.zip cs).map fun p => outputOf p.1.kind p.2).sum o.mixMax) := by
  simp only [mixSample, channelOut_eq]

theorem muted_eq_false_iff (s : State) : s.muted = false ↔ s.mode = .normal := by
  unfold State.muted
  cases s.mode <;> simp

theorem apuTick_samples (s : State) : s.apuTick.samples =
    if s.mode = .normal then s.samples ++ [mixSample s.ext s.ext.channels s.apuTick.apu] else s.samples := by
  by_cases h : s.mode = .normal
  · have hm : s.muted = false := (muted_eq_false_iff s).mpr h
    simp only [State.apuTick, hm, h]
    rfl
  · have hm : s.muted = true := by
      rw [← Bool.not_eq_false, muted_eq_false_iff]
      exact h
    simp only [State.apuTick, hm, if_neg h, if_true]

/-- The envelope does not look at the divider and the phase. -/
theorem envelopeTick_divider (e : EnvelopeStep) (c : Channel) (d : Word) (p : BitVec 15) :
    envelopeTick e { c with div := d, phase := p } = { envelopeTick e c with div := d, phase := p } := by
  by_cases hr : c.envReg.toNat % 64 = 0
  · rw [envelopeTick_still (c := c) (.inl hr)]
    exact envelopeTick_still (.inl hr)
  · cases hd : envDir c with
    | none =>
      rw [envelopeTick_still (c := c) (.inr hd)]
      exact envelopeTick_still (.inr hd)
    | some up =>
      by_cases he : c.env = 0#8
      · rw [envelopeTick_steps (c := c) hr hd he]
        exact envelopeTick_steps hr hd he
      · rw [envelopeTick_counts (c := c) hr hd he]
        exact envelopeTick_counts hr hd he

/-- The tick of an enabled channel (R581, R582): the divider and the phase are those of the divider's tick, the counter and
the volume those of the envelope's. -/
theorem channelTick_eq {c : Channel} (h : c.ctrl.getLsbD 0 = true) (e : EnvelopeStep) (k : ChannelKind) :
    channelTick e k c = { c with
      div := (dividerTick k c).div
      phase := (dividerTick k c).phase
      env := (envelopeTick e c).env
      vol := (envelopeTick e c).vol } := by
  rw [channelTick_enabled h, dividerTick_eq, envelopeTick_divider, envelopeTick_eq]

/-- The divider's part of a channel's tick. -/
theorem dividerTick_spec (k : ChannelKind) (c : Channel) :
    (c.div ≠ 0#16 → (dividerTick k c).div = c.div - 1#16 ∧ (dividerTick k c).phase = c.phase)
      ∧ (c.div = 0#16 → (dividerTick k c).div = c.period
        ∧ match k with
          | .square => (dividerTick k c).phase.toNat = (c.phase.toNat + 1) % 8
          | .noise => (dividerTick k c).phase = Config.lfsrStep c.phase
          | .pcm => (dividerTick k c).phase.toNat = c.data.toNat) := by
  refine ⟨fun h => ?_, fun h => ?_⟩
  · rw [dividerTick_counts h]
    exact ⟨rfl, rfl⟩
  · rw [dividerTick_reloads h]
    exact ⟨advancePhase_div k _, advancePhase_phase k _⟩

/-- The envelope's part of a channel's tick. -/
theorem envelopeTick_spec (e : EnvelopeStep) (c : Channel) :
    (c.envReg.toNat % 64 = 0 ∨ c.envReg.toNat / 64 = 0 ∨ c.envReg.toNat / 64 = 3 →
        (envelopeTick e c).env = c.env ∧ (envelopeTick e c).vol = c.vol)
      ∧ (c.envReg.toNat % 64 ≠ 0 → c.envReg.toNat / 64 = 1 ∨ c.envReg.toNat / 64 = 2 → c.env ≠ 0#8 →
        (envelopeTick e c).env = c.env - 1#8 ∧ (envelopeTick e c).vol = c.vol)
      ∧ (c.envReg.toNat % 64 ≠ 0 → c.envReg.toNat / 64 = 1 ∨ c.envReg.toNat / 64 = 2 → c.env = 0#8 →
        (envelopeTick e c).env.toNat = c.envReg.toNat % 64
          ∧ match e with
            | .standard => (envelopeTick e c).vol.toNat
                = if c.envReg.toNat / 64 = 1 then min (c.vol.toNat + 1) 15 else c.vol.toNat - 1
            | .custom => (envelopeTick e c).vol = Config.envelopeStep c.vol (c.envReg.toNat / 64 == 1)) := by
  have hdir : c.envReg.toNat / 64 = 1 ∨ c.envReg.toNat / 64 = 2 → envDir c = some (c.envReg.toNat / 64 == 1) := by
    rintro (h | h) <;> simp [envDir_eq, h]
  refine ⟨fun h => ?_, fun hr hd he => ?_, fun hr hd he => ?_⟩
  · rw [envelopeTick_still (h.imp_right fun h => by rcases h with h | h <;> simp [envDir_eq, h])]
    exact ⟨rfl, rfl⟩
  · rw [envelopeTick_counts hr (hdir hd) he]
    exact ⟨rfl, rfl⟩
  · rw [envelopeTick_steps hr (hdir hd) he]
    refine ⟨envRate_toNat c, ?_⟩
    cases e with
    | standard => simp only [envStep_standard_toNat, beq_iff_eq]
    | custom => rfl

/-- Settles O56: every channel's tick is that of its divider and of its envelope; the mixer appends the clipped sum. -/
theorem apuTickAndMute : Obligations.ApuTickAndMute := by
  unfold Obligations.ApuTickAndMute
  intro s
  refine ⟨channelTicks_length .., fun k u c hu hc =>
    ⟨_, channelTicks_get hu hc, fun h => channelTick_disabled h _ _, fun h => ?_⟩, fun hm => ?_, fun hm => ?_, fun _ => rfl,
    rfl⟩
  · rw [channelTick_eq h]
    obtain ⟨hcounts, hreloads⟩ := dividerTick_spec u.kind c
    obtain ⟨hstill, hdown, hstep⟩ := envelopeTick_spec s.cfg.envelopeStep c
    exact ⟨hcounts, hreloads, hstill, hdown, hstep, rfl⟩
  · rw [apuTick_samples, if_pos hm, mixSample_eq]
  · rw [apuTick_samples, if_neg hm]

end Sys2Proof.Machine

namespace Sys2Proof.Machine

/-! ## The port space as a table (O57, O58, O59) -/

/-- The ports of a timer unit at place `k`, with their registers (R546). -/
def timerRows (k : Nat) (u : TimerUnit) : List (Word × PortReg) :=
  [(u.control, .timer k .control), (u.reloadLo, .timer k .reloadLo), (u.reloadHi, .timer k .reloadHi),
    (u.countLo, .timer k .countLo), (u.countHi, .timer k .countHi)]

/-- The ports of the first `n` registers of a channel at place `k` (R585). -/
def channelRows (n k : Nat) (u : ChannelUnit) : List (Word × PortReg) :=
  (List.range n).map fun r => (u.base + BitVec.ofNat 16 r, .apu k r)

/-- Every owned port with its register, in the order of `ownedPorts` (R131). -/
def portTable (c : Cfg) (o : OpenCfg) : List (Word × PortReg) :=
  [(o.icPorts.enable, .icEnable), (o.icPorts.status, .icStatus), (o.icPorts.ack, .icAck)]
    ++ o.timers.zipIdx.flatMap (fun x => timerRows x.2 x.1)
    ++ [(o.ppuPorts.pctl, .pctl), (o.ppuPorts.line, .line)]
    ++ o.channels.zipIdx.flatMap (fun x => channelRows 6 x.2 x.1)
    ++ [(c.bankPorts.lin, .bank .lin), (c.bankPorts.save, .bank .save), (c.bankPorts.rom0, .bank .rom0),
      (c.bankPorts.rom1, .bank .rom1)]

/-! ### The table's ports are the owned ports -/

theorem timerRows_fst (us : List TimerUnit) (k : Nat) : ((us.zipIdx k).flatMap fun x => timerRows x.2 x.1).map Prod.fst
    = us.flatMap fun t => [t.control, t.reloadLo, t.reloadHi, t.countLo, t.countHi] := by
  induction us generalizing k with
  | nil => rfl
  | cons u us ih => rw [List.zipIdx_cons, List.flatMap_cons, List.map_append, ih, List.flatMap_cons]; rfl

theorem channelRows_fst (us : List ChannelUnit) (k : Nat) :
    ((us.zipIdx k).flatMap fun x => channelRows 6 x.2 x.1).map Prod.fst
      = us.flatMap fun ch => (List.range 6).map fun r => ch.base + BitVec.ofNat 16 r := by
  induction us generalizing k with
  | nil => rfl
  | cons u us ih => rw [List.zipIdx_cons, List.flatMap_cons, List.map_append, ih, List.flatMap_cons]; rfl

theorem portTable_fst (c : Cfg) (o : OpenCfg) : (portTable c o).map Prod.fst = ownedPorts c o := by
  simp only [portTable, ownedPorts, List.map_append, timerRows_fst, channelRows_fst]
  rfl

/-! ### The register at a port is the table's -/

theorem lookup_cons_ite (p q : Word) (r : PortReg) (l : List (Word × PortReg)) :
    ((q, r) :: l).lookup p = if p = q then some r else l.lookup p := by
  by_cases h : p = q
  · simp [List.lookup, h]
  · simp [List.lookup, h, beq_eq_false_iff_ne.mpr h]

theorem timerAt_eq_lookup (p : Word) (us : List TimerUnit) (k : Nat) :
    timerAt p k us = ((us.zipIdx k).flatMap fun x => timerRows x.2 x.1).lookup p := by
  induction us generalizing k with
  | nil => rfl
  | cons u us ih =>
    simp only [timerAt, ih, List.zipIdx_cons, List.flatMap_cons, timerRows, List.cons_append, List.nil_append, lookup_cons_ite]

theorem channelRows_lookup (p : Word) (k : Nat) (u : ChannelUnit) {n : Nat} (hn : n ≤ 65536) :
    (channelRows n k u).lookup p = if (p - u.base).toNat < n then some (.apu k (p - u.base).toNat) else none := by
  induction n with
  | zero => rfl
  | succ n ih =>
    have hlast : p = u.base + BitVec.ofNat 16 n ↔ (p - u.base).toNat = n := by bv_omega
    have hcons : channelRows (n + 1) k u = channelRows n k u ++ [(u.base + BitVec.ofNat 16 n, .apu k n)] := by
      simp [channelRows, List.range_succ]
    rw [hcons, List.lookup_append, ih (by omega), lookup_cons_ite]
    simp only [hlast, List.lookup_nil]
    generalize (p - u.base).toNat = d
    rcases Nat.lt_trichotomy d n with h | rfl | h
    · rw [if_pos h, if_pos (Nat.lt_succ_of_lt h), Option.some_or]
    · rw [if_neg (Nat.lt_irrefl d), if_pos rfl, if_pos (Nat.lt_succ_self d), Option.none_or]
    · rw [if_neg (Nat.lt_asymm h), if_neg (Nat.ne_of_gt h), if_neg (Nat.not_lt.mpr h), Option.none_or]

theorem apuAt_eq_lookup (p : Word) (us : List ChannelUnit) (k : Nat) :
    apuAt p k us = ((us.zipIdx k).flatMap fun x => channelRows 6 x.2 x.1).lookup p := by
  induction us generalizing k with
  | nil => rfl
  | cons u us ih =>
    rw [List.zipIdx_cons, List.flatMap_cons, List.lookup_append, channelRows_lookup _ _ _ (by omega), ← ih, apuAt]
    split <;> rfl

theorem portReg_eq_lookup (c : Cfg) (o : OpenCfg) (p : Word) : portReg c o p = (portTable c o).lookup p := by
  have hic : icAt o p = [(o.icPorts.enable, PortReg.icEnable), (o.icPorts.status, .icStatus),
      (o.icPorts.ack, .icAck)].lookup p := by
    simp only [icAt, lookup_cons_ite, List.lookup_nil]
  have hppu : ppuAt o p = [(o.ppuPorts.pctl, PortReg.pctl), (o.ppuPorts.line, .line)].lookup p := by
    simp only [ppuAt, lookup_cons_ite, List.lookup_nil]
  have hbank : bankAt c.bankPorts p = [(c.bankPorts.lin, PortReg.bank .lin), (c.bankPorts.save, .bank .save),
      (c.bankPorts.rom0, .bank .rom0), (c.bankPorts.rom1, .bank .rom1)].lookup p := by
    simp only [bankAt, lookup_cons_ite, List.lookup_nil]
  simp only [portReg, hic, hppu, hbank, timerAt_eq_lookup, apuAt_eq_lookup, portTable, List.lookup_append,
    Option.orElse_eq_orElse, Option.orElse_eq_or, Option.or_assoc]

/-! ### Which register a port number reaches -/

/-- Where the keys of a table differ, each row is the one found. -/
theorem lookup_of_mem {l : List (Word × PortReg)} (hl : (l.map Prod.fst).Nodup) {p : Word} {r : PortReg} (h : (p, r) ∈ l) :
    l.lookup p = some r := by
  obtain ⟨l₁, l₂, rfl⟩ := List.append_of_mem h
  refine List.lookup_eq_some_iff.mpr ⟨l₁, l₂, rfl, fun q hq => ?_⟩
  rw [List.map_append, List.nodup_append] at hl
  have hne : q.1 ≠ p := hl.2.2 q.1 (List.mem_map_of_mem hq) p (by simp)
  simpa using hne.symm

/-- The constraints on the ports (R131, R132). -/
theorem OpenCfg.ports_wf {c : Cfg} {o : OpenCfg} (h : o.wf c = true) :
    (ownedPorts c o).Nodup ∧ ∀ p ∈ ownedPorts c o, p.toNat < 2 ^ c.portWidth := by
  simp only [OpenCfg.wf, Bool.and_eq_true, decide_eq_true_eq, List.all_eq_true] at h
  exact ⟨by simp only [h], h.2⟩

/-- A row of the table says which register its port number reaches. -/
theorem portOwner_of_mem {s : State} (hwf : s.ext.wf s.cfg = true) {p : Word} {r : PortReg}
    (h : (p, r) ∈ portTable s.cfg s.ext) : s.portOwner p = some r := by
  obtain ⟨hnodup, hlt⟩ := OpenCfg.ports_wf hwf
  have hmem : p ∈ ownedPorts s.cfg s.ext := portTable_fst s.cfg s.ext ▸ List.mem_map_of_mem (f := Prod.fst) h
  have hnum : portNumber s.cfg p = p := by
    rw [portNumber, Nat.mod_eq_of_lt (hlt p hmem), BitVec.ofNat_toNat, BitVec.setWidth_eq]
  rw [State.portOwner, hnum, portReg_eq_lookup, lookup_of_mem (by rwa [portTable_fst]) h]

/-- A port number whose port no device owns reaches no register. -/
theorem portOwner_of_not_mem {s : State} {p : Word} (h : portNumber s.cfg p ∉ ownedPorts s.cfg s.ext) :
    s.portOwner p = none := by
  rw [State.portOwner, portReg_eq_lookup, List.lookup_eq_none_iff]
  intro q hq
  have hmem : q.1 ∈ ownedPorts s.cfg s.ext := portTable_fst s.cfg s.ext ▸ List.mem_map_of_mem (f := Prod.fst) hq
  simpa using fun he : portNumber s.cfg p = q.1 => h (he ▸ hmem)

theorem timerRows_mem {c : Cfg} {o : OpenCfg} {k : Nat} {u : TimerUnit} (hu : o.timers[k]? = some u) {x : Word × PortReg}
    (hx : x ∈ timerRows k u) : x ∈ portTable c o := by
  have h : x ∈ o.timers.zipIdx.flatMap fun x => timerRows x.2 x.1 :=
    List.mem_flatMap.mpr ⟨(u, k), List.mem_zipIdx_iff_getElem?.mpr hu, hx⟩
  simp only [portTable, List.mem_append, h, true_or, or_true]

theorem channelRows_mem {c : Cfg} {o : OpenCfg} {k : Nat} {u : ChannelUnit} (hu : o.channels[k]? = some u) {r : Nat}
    (hr : r < 6) : (u.base + BitVec.ofNat 16 r, .apu k r) ∈ portTable c o := by
  have h : (u.base + BitVec.ofNat 16 r, PortReg.apu k r) ∈ o.channels.zipIdx.flatMap fun x => channelRows 6 x.2 x.1 :=
    List.mem_flatMap.mpr ⟨(u, k), List.mem_zipIdx_iff_getElem?.mpr hu, List.mem_map.mpr ⟨r, List.mem_range.mpr hr, rfl⟩⟩
  simp only [portTable, List.mem_append, h, true_or, or_true]

end Sys2Proof.Machine

namespace Sys2Proof.Machine

/-! ## The ports of the controller, the PPU and the mapper (O57) -/

/-- The rows of the port table that are not a unit's or a channel's: the controller, the PPU and the mapper. -/
def fixedRows (c : Cfg) (o : OpenCfg) : List (Word × PortReg) :=
  [(o.icPorts.enable, .icEnable), (o.icPorts.status, .icStatus), (o.icPorts.ack, .icAck), (o.ppuPorts.pctl, .pctl),
    (o.ppuPorts.line, .line), (c.bankPorts.lin, .bank .lin), (c.bankPorts.save, .bank .save), (c.bankPorts.rom0, .bank .rom0),
    (c.bankPorts.rom1, .bank .rom1)]

theorem fixedRows_subset (c : Cfg) (o : OpenCfg) : fixedRows c o ⊆ portTable c o := by
  simp [fixedRows, portTable]

/-- Settles O57: the rows of the table for these ports, and what a read and a write of each register do. -/
theorem devicePorts : Obligations.DevicePorts := by
  unfold Obligations.DevicePorts
  intro s v hwf
  have howner {p : Word} {r : PortReg} (h : (p, r) ∈ fixedRows s.cfg s.ext) : s.portOwner p = some r :=
    portOwner_of_mem hwf (fixedRows_subset _ _ h)
  have henable : s.portOwner s.ext.icPorts.enable = some .icEnable := howner (by simp [fixedRows])
  have hstatus : s.portOwner s.ext.icPorts.status = some .icStatus := howner (by simp [fixedRows])
  have hack : s.portOwner s.ext.icPorts.ack = some .icAck := howner (by simp [fixedRows])
  have hpctl : s.portOwner s.ext.ppuPorts.pctl = some .pctl := howner (by simp [fixedRows])
  have hline : s.portOwner s.ext.ppuPorts.line = some .line := howner (by simp [fixedRows])
  have hlin : s.portOwner s.cfg.bankPorts.lin = some (.bank .lin) := howner (by simp [fixedRows])
  have hsave : s.portOwner s.cfg.bankPorts.save = some (.bank .save) := howner (by simp [fixedRows])
  have hrom0 : s.portOwner s.cfg.bankPorts.rom0 = some (.bank .rom0) := howner (by simp [fixedRows])
  have hrom1 : s.portOwner s.cfg.bankPorts.rom1 = some (.bank .rom1) := howner (by simp [fixedRows])
  have hmod : BitVec.ofNat 8 (s.ppu.line % 256) = BitVec.ofNat 8 s.ppu.line := BitVec.eq_of_toNat_eq (by simp)
  simp only [State.portRead8, State.portWrite8, henable, hstatus, hack, hpctl, hline, hlin, hsave, hrom0, hrom1, hmod,
    bankRead, true_and]
  refine ⟨rfl, rfl, rfl, rfl, rfl, rfl, rfl, fun a ha hin => ?_⟩
  rw [portOwner_of_not_mem ha, hin]
  exact ⟨rfl, rfl⟩

/-! ## The ports of a timer unit (O58) -/

/-- A port of a unit reads and writes the unit's register (R543-R546). -/
theorem timerPort_spec {s : State} {k : Nat} {u : TimerUnit} {t : Timer} (hwf : s.ext.wf s.cfg = true)
    (hu : s.ext.timers[k]? = some u) (ht : s.timers[k]? = some t) {p : Word} {r : TimerReg}
    (hp : (p, .timer k r) ∈ timerRows k u) (v : Byte) :
    s.portRead8 p = timerRead t r
      ∧ s.portWrite8 p v = { s with timers := s.timers.set k (timerWrite t r v) } := by
  have howner := portOwner_of_mem hwf (timerRows_mem hu hp)
  have hunit : s.timer k = t := by rw [State.timer, List.getD_eq_getElem?_getD, ht, Option.getD_some]
  simp only [State.portRead8, State.portWrite8, howner, hunit, true_and]
  rfl

/-- The control port's value (R543). -/
theorem timerRead_control_toNat (t : Timer) : (timerRead t .control).toNat = 2 * t.auto.toNat + t.en.toNat := by
  unfold timerRead
  cases t.auto <;> cases t.en <;> rfl

/-- A write of the control port starts a stopped unit from its reload value (R543). -/
theorem timerWrite_control (t : Timer) (v : Byte) : timerWrite t .control v = { t with
    en := v.getLsbD 0
    auto := v.getLsbD 1
    count := if t.en = false ∧ v.getLsbD 0 = true then t.reload else t.count } := by
  simp only [timerWrite, Bool.and_eq_true, Bool.not_eq_true']

/-- IN changes registers alone (R229). -/
theorem in_sameOutside {s t : State} {p : Byte} {i : Instr} (hi : i ∈ [.inAlIb p, .inAxIb p, .inAlDx, .inAxDx])
    (hx : exec i s = .next t) : SameOutside s t := by
  obtain ⟨halIb, halDx, haxIb, haxDx, -⟩ := portInputAndOutput s p
  have hplain {P : State → Prop} (h : Answers i s fun t => Plain i s t ∧ P t) : SameOutside s t := by
    obtain ⟨u, hu, hp, -⟩ := h
    obtain rfl : u = t := by rw [hu] at hx; injection hx
    exact hp.core.outside
  simp only [List.mem_cons, List.not_mem_nil, or_false] at hi
  rcases hi with rfl | rfl | rfl | rfl
  · exact hplain halIb
  · exact hplain haxIb
  · exact hplain halDx
  · exact hplain haxDx

/-- Settles O58: each port is its register's, and no IN writes outside the CPU. -/
theorem timerPorts : Obligations.TimerPorts := by
  unfold Obligations.TimerPorts
  intro s k u t v hwf hu ht
  have hport {p : Word} {r : TimerReg} (hp : (p, .timer k r) ∈ timerRows k u) := timerPort_spec hwf hu ht hp v
  obtain ⟨hcr, hcw⟩ := hport (r := .control) (p := u.control) (by simp [timerRows])
  obtain ⟨hclr, hclw⟩ := hport (r := .countLo) (p := u.countLo) (by simp [timerRows])
  obtain ⟨hchr, hchw⟩ := hport (r := .countHi) (p := u.countHi) (by simp [timerRows])
  refine ⟨⟨by rw [hcr, timerRead_control_toNat], by rw [hcw, timerWrite_control]⟩,
    hport (r := .reloadLo) (by simp [timerRows]), hport (r := .reloadHi) (by simp [timerRows]), ⟨hclr, hclw⟩,
    ⟨hchr, hchw⟩, fun hnext => ?_, fun p i r hi hx => ?_⟩
  · rw [State.portRead16, ← hnext, hchr, hclr]
    exact hi_append_lo t.count
  · have hout := in_sameOutside hi hx
    exact ⟨hout.timers, hout.ic⟩

/-! ## The ports of an APU channel (O59) -/

/-- A port of a channel reads and writes the channel's register (R584, R585). -/
theorem channelPort_spec {s : State} {k : Nat} {u : ChannelUnit} {c : Channel} (hwf : s.ext.wf s.cfg = true)
    (hu : s.ext.channels[k]? = some u) (hc : s.apu[k]? = some c) {r : Nat} (hr : r < 6) (v : Byte) :
    s.portRead8 (u.base + BitVec.ofNat 16 r) = channelRead c r
      ∧ s.portWrite8 (u.base + BitVec.ofNat 16 r) v
        = { s with apu := s.apu.set k (channelWrite s.ext u.kind c r v) } := by
  have howner := portOwner_of_mem hwf (channelRows_mem hu hr)
  have hchannel : s.channel k = c := by rw [State.channel, List.getD_eq_getElem?_getD, hc, Option.getD_some]
  have hkind : channelKind s.ext k = u.kind := by rw [channelKind, hu]; rfl
  simp only [State.portRead8, State.portWrite8, howner, hchannel, hkind, true_and]
  rfl

theorem channelRead_vol_toNat (c : Channel) : (channelRead c 2).toNat = c.vol.toNat := by
  have := c.vol.isLt
  simp only [channelRead, BitVec.toNat_setWidth]
  omega

theorem channelWrite_vol (o : OpenCfg) (k : ChannelKind) (c : Channel) (v : Byte) :
    channelWrite o k c 2 v = { c with vol := BitVec.ofNat 4 v.toNat } := rfl

/-- A write of CTRL: a channel that it enables restarts its divider, envelope and phase (R584). -/
theorem channelWrite_ctrl (o : OpenCfg) (k : ChannelKind) (c : Channel) (v : Byte) : channelWrite o k c 4 v =
    if c.ctrl.getLsbD 0 = false ∧ v.getLsbD 0 = true then
      { c with
        ctrl := v
        div := c.period
        env := BitVec.ofNat 8 (c.envReg.toNat % 64)
        phase := match k with | .noise => o.lfsrSeed | .square => 0#15 | .pcm => 0#15 }
    else { c with ctrl := v } := by
  have hrate : envRate c = BitVec.ofNat 8 (c.envReg.toNat % 64) := by
    rw [← envRate_toNat, BitVec.ofNat_toNat, BitVec.setWidth_eq]
  have hphase : restartPhase o k = match k with | .noise => o.lfsrSeed | .square => 0#15 | .pcm => 0#15 := by
    cases k <;> rfl
  simp only [channelWrite, chen, Bool.and_eq_true, Bool.not_eq_true', hrate, hphase]

/-- Settles O59: each of the six ports is its register's. -/
theorem apuPorts : Obligations.ApuPorts := by
  unfold Obligations.ApuPorts
  intro s k u c v hwf hu hc
  have hport (r : Nat) (hr : r < 6) := channelPort_spec hwf hu hc hr v
  obtain ⟨hvr, hvw⟩ := hport 2 (by decide)
  obtain ⟨hcr, hcw⟩ := hport 4 (by decide)
  refine ⟨?_, hport 1 (by decide), ⟨by rw [hvr, channelRead_vol_toNat], by rw [hvw, channelWrite_vol]⟩, hport 3 (by decide),
    ⟨hcr, ?_⟩, hport 5 (by decide)⟩
  · have h := hport 0 (by decide)
    rwa [BitVec.add_zero] at h
  · rw [hcw, channelWrite_ctrl]
    split <;> rfl

end Sys2Proof.Machine

namespace Sys2Proof.Machine

/-! ## The scheduler (O60) -/

/-! ### The clock conversion -/

/-- Splitting off the whole ticks of `a` keeps the quotient and the remainder of a longer amount exact: what R622 relies on. -/
theorem div_add_div_of_mod {q : Nat} (hq : 0 < q) (a b : Nat) : a / q + (b + a % q) / q = (b + a) / q := by
  have hsplit : b + a = b + a % q + q * (a / q) := by rw [Nat.add_assoc, Nat.mod_add_div]
  rw [hsplit, Nat.add_mul_div_left _ _ hq, Nat.add_comm]

/-- Conversion loses nothing: amounts converted one after the other give the ticks and the remainder of their sum (R622). -/
theorem convertAll_eq (r : Ratio) (es : List Nat) {rem : Nat} (h : rem < r.q) :
    convertAll r es rem = ((r.p * es.sum + rem) / r.q, (r.p * es.sum + rem) % r.q) := by
  have hq : 0 < r.q := Nat.zero_lt_of_lt h
  induction es generalizing rem with
  | nil => simp [convertAll, Nat.div_eq_of_lt h, Nat.mod_eq_of_lt h]
  | cons e es ih =>
    have hsum : r.p * (e :: es).sum + rem = r.p * es.sum + (e * r.p + rem) := by
      rw [List.sum_cons]
      ring
    simp only [convertAll, convertCycles, ih (Nat.mod_lt _ hq)]
    rw [hsum, div_add_div_of_mod hq, Nat.add_mod_mod]

/-! ### The advance of the devices -/

/-- The devices that the advance takes over are the whole of the ticked state: the ticks touch nothing else (R30, R620). -/
theorem advanceDevices_eq (s : State) (e : Nat) :
    let d := convertCycles e s.ext.dotsPerCycle s.rem.ppu
    let a := convertCycles e s.ext.apuTicksPerCycle s.rem.apu
    let t := convertCycles e s.ext.timerClock s.rem.timer
    s.advanceDevices e =
      { Nat.repeat State.timerTickAll t.1 (Nat.repeat State.apuTick a.1 (Nat.repeat State.ppuDot d.1 s)) with
        rem := ⟨d.2, a.2, t.2⟩
        elapsed := s.elapsed + e } := by
  intro d a t
  have hticks : DevicesOnly s (((s.ppuDots d.1).apuTicks a.1).timerTicks t.1) :=
    ((devicesOnly_ppuDots s d.1).trans (devicesOnly_apuTicks _ a.1)).trans (devicesOnly_timerTicks _ t.1)
  rw [← ppuDots_eq, ← apuTicks_eq, ← timerTicks_eq, hticks]
  rfl

/-! ### The frame run -/

/-- The `k + 1`st step from `s` ends in `u` and is the first one after which the frame edge is set (R621). -/
structure FirstEdge (s : State) (k : Nat) (u : State) : Prop where
  run : runSteps (k + 1) s = .next u
  edge : u.ppu.vblankEdge = true
  first : ∀ j v, j < k → runSteps (j + 1) s = .next v → v.ppu.vblankEdge = false

/-- A run goes on from where its first step ends (R624). -/
theorem runSteps_succ {s t : State} (h : step s = .next t) (n : Nat) : runSteps (n + 1) s = runSteps n t := by
  rw [runSteps, h]

theorem firstEdge_zero {s t : State} (h : step s = .next t) (he : t.ppu.vblankEdge = true) : FirstEdge s 0 t where
  run := runSteps_succ h 0
  edge := he
  first j _ hj := absurd hj (Nat.not_lt_zero j)

theorem FirstEdge.succ {s t u : State} {k : Nat} (h : step s = .next t) (he : t.ppu.vblankEdge = false)
    (hk : FirstEdge t k u) : FirstEdge s (k + 1) u where
  run := (runSteps_succ h (k + 1)).trans hk.run
  edge := hk.edge
  first j v hj hv := by
    rw [runSteps_succ h] at hv
    cases j with
    | zero =>
      obtain rfl : t = v := Host.Outcome.next.inj hv
      exact he
    | succ j => exact hk.first j v (Nat.lt_of_succ_lt_succ hj) hv

/-- A loop that answers ended with the first step that set the edge, and cleared it (R621). -/
theorem frameLoop_next {n : Nat} {s t : State} (h : frameLoop n s = some (.next t)) :
    ∃ k u, k < n ∧ FirstEdge s k u ∧ t = u.clearEdge := by
  induction n generalizing s with
  | zero => cases h
  | succ n ih =>
    rw [frameLoop] at h
    cases hs : step s with
    | fault r => rw [hs] at h; cases h
    | refused r => rw [hs] at h; cases h
    | next v =>
      rw [hs] at h
      cases he : v.ppu.vblankEdge with
      | true =>
        have hv : v.clearEdge = t := by simpa [he] using h
        exact ⟨0, v, Nat.succ_pos n, firstEdge_zero hs he, hv.symm⟩
      | false =>
        obtain ⟨k, u, hk, hu, ht⟩ := ih (s := v) (by simpa [he] using h)
        exact ⟨k + 1, u, Nat.succ_lt_succ hk, hu.succ hs he, ht⟩

/-- A frame run that answers is a loop that answers, begun with no source raised, and its report (R590). -/
theorem runFrame_next {n : Nat} {s t : State} {r : FrameReport} (h : runFrame n s = some (.next (r, t))) :
    frameLoop n (s.setRaised 0#8) = some (.next t) ∧ r = frameReport s t := by
  unfold runFrame at h
  split at h
  case h_4 v hv =>
    obtain ⟨rfl, rfl⟩ : frameReport s v = r ∧ v = t := by simpa using h
    exact ⟨hv, rfl⟩
  all_goals cases h

/-- Settles O60: the exact conversion, the advance of the devices, the step around the CPU step, and the frame run. -/
theorem schedulerStep : Obligations.SchedulerStep := by
  unfold Obligations.SchedulerStep
  refine ⟨fun r es rem hrem => ?_, fun s e => ⟨advanceDevices_eq s e, timerTicksFrom_eq s 0 s.ext.timers⟩,
    fun s t c hc => ?_, fun n s t r h => ?_⟩
  · rw [convertAll_eq r es hrem]
    exact ⟨rfl, rfl, Nat.mod_lt _ (Nat.zero_lt_of_lt hrem), fun h0 => by rw [h0, Nat.add_zero]⟩
  · rw [step_of_cpuStep hc]
    cases c <;> rfl
  · obtain ⟨hloop, rfl⟩ := runFrame_next h
    obtain ⟨k, u, hk, hu, rfl⟩ := frameLoop_next hloop
    exact ⟨k, u, hk, hu.run, hu.edge, hu.first, rfl, rfl⟩

end Sys2Proof.Machine
